-- ==== Sys2Proof/Word.lean ====
section
/-! DEFINITION. The word types: a byte on the bus and a 32-bit quantity (spec 00 R8: all quantities unsigned). -/

namespace Sys2Proof

/-- A byte, bit 7 its most significant bit (00 R8). -/
abbrev Byte := BitVec 8

/-- A 32-bit unsigned quantity: `arg`, `sector`, `count`, `blk`, `trailing`, `result` (10 R20). -/
abbrev Word := BitVec 32

end Sys2Proof
end

