-- ==== Sys2Proof/Config.lean ====
section
/-! DEFINITION. The parameters of the block (spec 00 R6), their constraints (00 R7), and a free constant. -/

namespace Sys2Proof

/-- The two values of a policy parameter (00 R6, D16, D21). -/
inductive Policy where
  | fail | degrade
  deriving DecidableEq, Repr

/-- The parameters of 00 R6, every one a field, each with the default value the rule gives. -/
structure Config where
  /-- `BLOCK_LEN` -/
  blockLen : Nat := 512
  /-- `FRAME_LEN` -/
  frameLen : Nat := 6
  /-- `TRAILING_LEN` -/
  trailingLen : Nat := 4
  /-- `DATA_CRC_LEN` -/
  dataCrcLen : Nat := 2
  /-- `START_BITS` -/
  startBits : Byte := 0x40
  /-- `R1_NOT_READY` -/
  r1NotReady : Byte := 0x80
  /-- `R1_IDLE` -/
  r1Idle : Byte := 0x01
  /-- `R1_OK` -/
  r1Ok : Byte := 0x00
  /-- `IDLE_BYTE` -/
  idleByte : Byte := 0xFF
  /-- `POWERON_BYTES` -/
  powerOnBytes : Nat := 10
  /-- `VCHECK_ARG` -/
  vcheckArg : Word := 0x000001AA
  /-- `VCHECK_MASK` -/
  vcheckMask : Word := 0x00000FFF
  /-- `IDX_RESET` -/
  idxReset : BitVec 6 := 0
  /-- `IDX_VCHECK` -/
  idxVcheck : BitVec 6 := 8
  /-- `IDX_OCR` -/
  idxOcr : BitVec 6 := 58
  /-- `IDX_MARKER` -/
  idxMarker : BitVec 6 := 55
  /-- `IDX_OPCOND` -/
  idxOpcond : BitVec 6 := 41
  /-- `IDX_LEGACY` -/
  idxLegacy : BitVec 6 := 1
  /-- `IDX_BLOCKLEN` -/
  idxBlocklen : BitVec 6 := 16
  /-- `IDX_READ` -/
  idxRead : BitVec 6 := 17
  /-- `IDX_WRITE` -/
  idxWrite : BitVec 6 := 24
  /-- `IDX_CSD` -/
  idxCsd : BitVec 6 := 9
  /-- `CRC_RESET` -/
  crcReset : Byte := 0x95
  /-- `CRC_VCHECK` -/
  crcVcheck : Byte := 0x87
  /-- `CRC_OCR` -/
  crcOcr : Byte := 0xFD
  /-- `CRC_PLACEHOLDER` -/
  crcPlaceholder : Byte := 0x01
  /-- `HCS_ARG` -/
  hcsArg : Word := 0x40000000
  /-- `CCS_BIT` -/
  ccsBit : Fin 32 := 30
  /-- `TOKEN_START` -/
  tokenStart : Byte := 0xFE
  /-- `DR_MASK` -/
  drMask : Byte := 0x1F
  /-- `DR_ACCEPT` -/
  drAccept : Byte := 0x05
  /-- `DR_CRC_ERR` -/
  drCrcErr : Byte := 0x0B
  /-- `DR_WRITE_ERR` -/
  drWriteErr : Byte := 0x0D
  /-- `R1_POLL_BUDGET`, 8 bits wide (00 R7, 10 R28) -/
  r1PollBudget : BitVec 8 := 10
  /-- `T_OPCOND`, 16 bits wide (00 R7, 10 R35) -/
  tOpcond : BitVec 16 := 1000
  /-- `T_TOKEN` -/
  tToken : BitVec 16 := 200
  /-- `T_BUSY` -/
  tBusy : BitVec 16 := 500
  /-- `T_BUS`: the timeout of one byte exchange in the transport, in milliseconds; `none` is the value the rule gives, "open". No
  rule depends on it (93 U8, log 6) -/
  tBus : Option Nat := none
  /-- `TICK_MS`: nominal period in milliseconds; no rule depends on it -/
  tickMs : Nat := 1
  /-- `P_VCHECK_MISMATCH` -/
  pVcheckMismatch : Policy := .fail
  /-- `P_BLOCKLEN_FAIL` -/
  pBlocklenFail : Policy := .fail
  /-- `HAS_QSC` -/
  hasQsc : Bool := true
  /-- `CSD_LEN` -/
  csdLen : Nat := 16
  deriving DecidableEq, Repr

/-- The default configuration of 00 R6. -/
def Config.default : Config := {}

/-- The constraints of 00 R7. Those on ranges that the field types already give (`IDX_*` in 0 .. 63, budgets at most
255 or 65535) are not repeated. -/
def Config.meetsR7 (c : Config) : Bool :=
  [c.r1PollBudget != 0, c.tOpcond != 0, c.tToken != 0, c.tBusy != 0, decide (74 ≤ c.powerOnBytes * 8), c.tokenStart != 0xFF,
    c.drAccept != c.drCrcErr, c.drAccept != c.drWriteErr, c.drCrcErr != c.drWriteErr,
    (c.drAccept &&& c.drMask) == c.drAccept, (c.drCrcErr &&& c.drMask) == c.drCrcErr,
    (c.drWriteErr &&& c.drMask) == c.drWriteErr].all id

/-- DEDUCED (log 5). The parameters that the register widths of 10 R20 and the literals of the rules fix: six frame bytes
(10 R22), four trailing bytes (10 R24), sixteen CSD bytes (10 R26), two CRC bytes (43 R175), blocks of 512 (20 R56
"The block length is never anything but 512"), start bits 0x40 (30 R70), R1 values 0x80, 0x01, 0x00 (30 R74). -/
def Config.meetsWidths (c : Config) : Bool :=
  [c.blockLen == 512, c.frameLen == 6, c.trailingLen == 4, c.dataCrcLen == 2, c.csdLen == 16, c.startBits == 0x40,
    c.r1NotReady == 0x80, c.r1Idle == 0x01, c.r1Ok == 0x00].all id

/-- What a configuration must meet: "A model refuses a configuration that breaks a constraint" (00 R7). -/
def Config.ok (c : Config) : Bool := c.meetsR7 && c.meetsWidths

/-- The ten command indices of 30 R72. -/
def Config.indices (c : Config) : List (BitVec 6) :=
  [c.idxReset, c.idxVcheck, c.idxMarker, c.idxOpcond, c.idxOcr, c.idxLegacy, c.idxBlocklen, c.idxRead, c.idxWrite,
    c.idxCsd]

/-- The configurations under which an encoding determines its row: distinct indices, a high-capacity argument that differs
from the legacy one, an idle byte that differs from the start token. The block itself never needs this (it decodes no frame);
the decoder does. -/
def Config.decodable (c : Config) : Bool :=
  decide c.indices.Nodup && c.hcsArg != 0 && c.idleByte != c.tokenStart

/-- A free value (log 6): what `translate` would give for `Unknown`. 43 R170: "never called"; 91 N9: "Must not assume: that an
`Unknown` card is byte-addressed (or block-addressed)." -/
opaque Config.untranslated : Word → Word

end Sys2Proof
end

