-- ==== Sys2Proof/Syntax.lean ====
section
/-! DEFINITION. The rows of spec/opcode_table.json, one constructor each (spec 30 R72, R74, R78, R79, R82). -/

namespace Sys2Proof

/-- One constructor per row of the opcode table.

* Command frames (30 R72): the argument of CMD17 and CMD24 is an operand, every other argument is a constant of the rule.
* Host operations (30 R82): `sector` and `count` are the operands START carries; every operation latches them (44 R200).
* Bytes on the bus: the operand of the rows with ignored or free bits is the whole byte; `Instr.wf` holds it to the pattern. -/
inductive Instr where
  | cmd0
  | cmd8
  | cmd55
  | acmd41Hcs
  | acmd41Legacy
  | cmd58
  | cmd1
  | cmd16
  | cmd17 (arg : Word)
  | cmd24 (arg : Word)
  | cmd9
  | init (sector count : Word)
  | read (sector count : Word)
  | write (sector count : Word)
  | getver (sector count : Word)
  | qcount (sector count : Word)
  | qsize (sector count : Word)
  | reserved6 (sector count : Word)
  | reserved7 (sector count : Word)
  | tokenStart
  | idleByte
  | r1NotReady (b : Byte)
  | r1Valid (b : Byte)
  | drespAccept (b : Byte)
  | drespCrcErr (b : Byte)
  | drespWriteErr (b : Byte)
  deriving DecidableEq, Repr

/-- The eleven command rows of the table, without their operand. -/
inductive Cmd where
  | cmd0 | cmd8 | cmd55 | acmd41Hcs | acmd41Legacy | cmd58 | cmd1 | cmd16 | cmd17 | cmd24 | cmd9
  deriving DecidableEq, Repr

end Sys2Proof
end

