-- ==== Sys2Proof/WellFormed.lean ====
section
/-! DEFINITION. Which terms of `Instr` are instructions: the byte rows hold their byte to the row's pattern. -/

namespace Sys2Proof

/-- `R1_NOT_READY` (30 R74): bit 7 set. `R1_VALID`: bit 7 clear. The three data-response rows (30 R79): the byte under
`DR_MASK` equals the row's pattern. Every operand of the other rows is a full-width field and has no ill-formed value. -/
def Instr.wf (c : Config) : Instr → Bool
  | .r1NotReady b => (b &&& 0x80) == 0x80
  | .r1Valid b => (b &&& 0x80) == 0
  | .drespAccept b => (b &&& c.drMask) == c.drAccept
  | .drespCrcErr b => (b &&& c.drMask) == c.drCrcErr
  | .drespWriteErr b => (b &&& c.drMask) == c.drWriteErr
  | .cmd0 | .cmd8 | .cmd55 | .acmd41Hcs | .acmd41Legacy | .cmd58 | .cmd1 | .cmd16 | .cmd17 _ | .cmd24 _ | .cmd9
  | .init _ _ | .read _ _ | .write _ _ | .getver _ _ | .qcount _ _ | .qsize _ _ | .reserved6 _ _ | .reserved7 _ _
  | .tokenStart | .idleByte => true

end Sys2Proof
end

