-- ==== Sys2Proof/Decode.lean ====
section
/-! DEFINITION. Encodings: the framer and CRC field unit (spec 30 R70, R71, 41 R121), the decoder of each port, and the encoder.

The table's patterns are read in different places and overlap as numbers (`0x05` is an `op` code, a data response and an R1
byte), so the decoder is told which port the word stands on (log 8). -/

namespace Sys2Proof

/-! ## The framer -/

/-- The `index` parameter of each command (30 R72, R88). -/
def Cmd.index (c : Config) : Cmd → BitVec 6
  | .cmd0 => c.idxReset
  | .cmd8 => c.idxVcheck
  | .cmd55 => c.idxMarker
  | .acmd41Hcs => c.idxOpcond
  | .acmd41Legacy => c.idxOpcond
  | .cmd58 => c.idxOcr
  | .cmd1 => c.idxLegacy
  | .cmd16 => c.idxBlocklen
  | .cmd17 => c.idxRead
  | .cmd24 => c.idxWrite
  | .cmd9 => c.idxCsd

/-- The argument a command carries where it is a constant (30 R72, R88); `a` where it is the operand. -/
def Cmd.argument (c : Config) (a : Word) : Cmd → Word
  | .cmd0 => 0
  | .cmd8 => c.vcheckArg
  | .cmd55 => 0
  | .acmd41Hcs => c.hcsArg
  | .acmd41Legacy => 0
  | .cmd58 => 0
  | .cmd1 => 0
  | .cmd16 => BitVec.ofNat 32 c.blockLen
  | .cmd17 => a
  | .cmd24 => a
  | .cmd9 => 0

/-- The row a command with argument `a` is. -/
def Cmd.toInstr (a : Word) : Cmd → Instr
  | .cmd0 => .cmd0
  | .cmd8 => .cmd8
  | .cmd55 => .cmd55
  | .acmd41Hcs => .acmd41Hcs
  | .acmd41Legacy => .acmd41Legacy
  | .cmd58 => .cmd58
  | .cmd1 => .cmd1
  | .cmd16 => .cmd16
  | .cmd17 => .cmd17 a
  | .cmd24 => .cmd24 a
  | .cmd9 => .cmd9

/-- The CRC field unit (30 R71): "The CRC byte is a function of the command index alone". -/
def crcByte (c : Config) (index : BitVec 6) : Byte :=
  if index = c.idxReset then c.crcReset
  else if index = c.idxVcheck then c.crcVcheck
  else if index = c.idxOcr then c.crcOcr
  else c.crcPlaceholder

/-- Byte `k` of a word, `k = 0` the most significant: the order of the bus (20 R54). -/
def wordByte (w : Word) (k : Nat) : Byte := BitVec.extractLsb' (24 - 8 * k) 8 w

/-- `t0 ++ t1 ++ t2 ++ t3`, `t0` the most significant byte (20 R54, 41 R124). -/
def packWord (t0 t1 t2 t3 : Byte) : Word := t0 ++ t1 ++ t2 ++ t3

/-- Byte 0 of a frame: `0x40 | index` (30 R70). -/
def startByte (c : Config) (index : BitVec 6) : Byte := c.startBits ||| index.setWidth 8

/-- Frame assembly, "a pure function of `(index, a)`" (41 R121, 30 R70). -/
def frameOf (c : Config) (index : BitVec 6) (a : Word) : Vector Byte 6 :=
  #v[startByte c index, wordByte a 0, wordByte a 1, wordByte a 2, wordByte a 3, crcByte c index]

/-- A response format (30 R73). -/
inductive RespType where
  | r1 | r3 | r7
  deriving DecidableEq, Repr

/-- The demultiplexer (30 R73): the format is chosen "from the index of the command just sent, never from the content". -/
def respType (c : Config) (index : BitVec 6) : RespType :=
  if index = c.idxVcheck then .r7 else if index = c.idxOcr then .r3 else .r1

/-! ## Decoding -/

/-- Where a word is read. -/
inductive Port where
  /-- the six bytes of a command frame (30 R70) -/
  | frame
  /-- the host port's `op` with its operands (30 R82) -/
  | host
  /-- a byte the R1 poll receives (30 R74) -/
  | r1
  /-- a byte of the token wait, or one the block sends outside frames and data (30 R78, R81, 40 R102) -/
  | token
  /-- the data-response byte (30 R79) -/
  | dresp
  deriving DecidableEq, Repr

/-- Why bytes are not an instruction. -/
inductive Reject where
  /-- fewer bytes than the instruction has -/
  | truncated
  /-- the top two bits of a frame are not 01 (30 R70) -/
  | badStartBits
  /-- "Command indices other than the ten of rule R72: never emitted" (30 R84) -/
  | unknownIndex
  /-- an argument the command never carries (30 R72) -/
  | badArgument
  /-- a CRC byte that `crcByte` does not give (30 R71) -/
  | badCrc
  /-- an op byte above 7: `op` has three bits (30 R82) -/
  | badOp
  /-- neither the start token nor the idle byte: "a transmission error" (30 R78) -/
  | notAToken
  /-- "not a data response" (30 R79) -/
  | notADataResponse
  deriving DecidableEq, Repr

/-- The command an index and an argument stand for (30 R72). -/
def commandOf (c : Config) (index : BitVec 6) (a : Word) : Except Reject Cmd :=
  if index = c.idxReset then .ok .cmd0
  else if index = c.idxVcheck then .ok .cmd8
  else if index = c.idxMarker then .ok .cmd55
  else if index = c.idxOpcond then .ok (if a = c.hcsArg then .acmd41Hcs else .acmd41Legacy)
  else if index = c.idxOcr then .ok .cmd58
  else if index = c.idxLegacy then .ok .cmd1
  else if index = c.idxBlocklen then .ok .cmd16
  else if index = c.idxRead then .ok .cmd17
  else if index = c.idxWrite then .ok .cmd24
  else if index = c.idxCsd then .ok .cmd9
  else .error .unknownIndex

/-- A command frame from its six bytes (30 R70 to R72). -/
def decodeFrame (c : Config) (b0 b1 b2 b3 b4 b5 : Byte) : Except Reject Instr :=
  let index : BitVec 6 := b0.setWidth 6
  let a := packWord b1 b2 b3 b4
  if b0 ≠ startByte c index then .error .badStartBits
  else match commandOf c index a with
    | .error r => .error r
    | .ok cmd =>
      if a ≠ cmd.argument c a then .error .badArgument
      else if b5 ≠ crcByte c index then .error .badCrc
      else .ok (cmd.toInstr a)

/-- A host operation from `op` and the operands of START (30 R82): every code is a row of the table. -/
def decodeOp (op : BitVec 3) (sector count : Word) : Instr :=
  match op with
  | 0 => .init sector count
  | 1 => .read sector count
  | 2 => .write sector count
  | 3 => .getver sector count
  | 4 => .qcount sector count
  | 5 => .qsize sector count
  | 6 => .reserved6 sector count
  | 7 => .reserved7 sector count

/-- The response parser's classification of a polled byte by bit 7 alone (41 R125, 30 R74). -/
def decodeR1 (b : Byte) : Instr := if (b &&& 0x80) = 0 then .r1Valid b else .r1NotReady b

/-- A byte outside frames and data that is a row of the table (30 R78, R81). -/
def decodeToken (c : Config) (b : Byte) : Except Reject Instr :=
  if b = c.tokenStart then .ok .tokenStart
  else if b = c.idleByte then .ok .idleByte
  else .error .notAToken

/-- The data-response byte under `DR_MASK` (30 R79). -/
def decodeDresp (c : Config) (b : Byte) : Except Reject Instr :=
  if (b &&& c.drMask) = c.drAccept then .ok (.drespAccept b)
  else if (b &&& c.drMask) = c.drCrcErr then .ok (.drespCrcErr b)
  else if (b &&& c.drMask) = c.drWriteErr then .ok (.drespWriteErr b)
  else .error .notADataResponse

/-- The instruction at the head of a list of bytes on a port, with the bytes after it; total on any bytes. A host word is laid
out as the op byte, then `sector` and `count`, most significant byte first (DESIGN CHOICE, log 18: the port is parallel). -/
def decode (c : Config) (p : Port) (bytes : List Byte) : Except Reject (Instr × List Byte) :=
  match p, bytes with
  | .frame, b0 :: b1 :: b2 :: b3 :: b4 :: b5 :: rest => (decodeFrame c b0 b1 b2 b3 b4 b5).map (·, rest)
  | .host, o :: s0 :: s1 :: s2 :: s3 :: n0 :: n1 :: n2 :: n3 :: rest =>
    if o &&& 0xF8 = 0 then
      .ok (decodeOp (o.setWidth 3) (packWord s0 s1 s2 s3) (packWord n0 n1 n2 n3), rest)
    else .error .badOp
  | .r1, b :: rest => .ok (decodeR1 b, rest)
  | .token, b :: rest => (decodeToken c b).map (·, rest)
  | .dresp, b :: rest => (decodeDresp c b).map (·, rest)
  | _, _ => .error .truncated

/-! ## Encoding -/

/-- The port on which an instruction stands. -/
def Instr.port : Instr → Port
  | .cmd0 | .cmd8 | .cmd55 | .acmd41Hcs | .acmd41Legacy | .cmd58 | .cmd1 | .cmd16 | .cmd17 _ | .cmd24 _ | .cmd9 => .frame
  | .init _ _ | .read _ _ | .write _ _ | .getver _ _ | .qcount _ _ | .qsize _ _ | .reserved6 _ _ | .reserved7 _ _ => .host
  | .tokenStart | .idleByte => .token
  | .r1NotReady _ | .r1Valid _ => .r1
  | .drespAccept _ | .drespCrcErr _ | .drespWriteErr _ => .dresp

/-- The six bytes of a command (30 R70). -/
def encodeCmd (c : Config) (cmd : Cmd) (a : Word) : List Byte :=
  (frameOf c (cmd.index c) (cmd.argument c a)).toList

/-- The bytes of a host word (log 18). -/
def encodeOp (op : BitVec 3) (sector count : Word) : List Byte :=
  [op.setWidth 8, wordByte sector 0, wordByte sector 1, wordByte sector 2, wordByte sector 3,
    wordByte count 0, wordByte count 1, wordByte count 2, wordByte count 3]

/-- The bytes of an instruction, written from 30 R70 to R72, R74, R78, R79, R82. -/
def encode (c : Config) : Instr → List Byte
  | .cmd0 => encodeCmd c .cmd0 0
  | .cmd8 => encodeCmd c .cmd8 0
  | .cmd55 => encodeCmd c .cmd55 0
  | .acmd41Hcs => encodeCmd c .acmd41Hcs 0
  | .acmd41Legacy => encodeCmd c .acmd41Legacy 0
  | .cmd58 => encodeCmd c .cmd58 0
  | .cmd1 => encodeCmd c .cmd1 0
  | .cmd16 => encodeCmd c .cmd16 0
  | .cmd17 a => encodeCmd c .cmd17 a
  | .cmd24 a => encodeCmd c .cmd24 a
  | .cmd9 => encodeCmd c .cmd9 0
  | .init s n => encodeOp 0 s n
  | .read s n => encodeOp 1 s n
  | .write s n => encodeOp 2 s n
  | .getver s n => encodeOp 3 s n
  | .qcount s n => encodeOp 4 s n
  | .qsize s n => encodeOp 5 s n
  | .reserved6 s n => encodeOp 6 s n
  | .reserved7 s n => encodeOp 7 s n
  | .tokenStart => [c.tokenStart]
  | .idleByte => [c.idleByte]
  | .r1NotReady b => [b]
  | .r1Valid b => [b]
  | .drespAccept b => [b]
  | .drespCrcErr b => [b]
  | .drespWriteErr b => [b]

/-! ## The table's own numbering -/

/-- The byte of a 48-bit frame `F` at place `k`: byte 0 is bits 47:40 (30 R70). -/
def frameByteOf (w k : Nat) : Byte := BitVec.ofNat 8 (w >>> (40 - 8 * k))

/-- The ports a table word of one byte may stand on, most fixed bits first (log 8): the host port for a byte whose bits 7:3 are 0 (a
3-bit `op` in a whole byte), then the token bytes (8 fixed bits), the data responses (5), the R1 byte (1). -/
def decodeTableByte (c : Config) (b : Byte) : Instr :=
  if b &&& 0xF8 = 0 then decodeOp (b.setWidth 3) 0 0
  else match decodeToken c b with
    | .ok i => i
    | .error _ => match decodeDresp c b with
      | .ok i => i
      | .error _ => decodeR1 b

/-- The instruction the decoder reads from a word of the opcode table, at the default parameters (which the table's patterns are
for): 48 bits a frame, one byte (or the 3 bits of `op`) as `decodeTableByte` says, no other width. -/
def decodeTableWord (nbits w : Nat) : Option Instr :=
  if nbits = 48 then
    if w < 2 ^ 48 then
      (decodeFrame Config.default (frameByteOf w 0) (frameByteOf w 1) (frameByteOf w 2) (frameByteOf w 3) (frameByteOf w 4)
        (frameByteOf w 5)).toOption
    else none
  else if nbits = 8 then
    if w < 2 ^ 8 then some (decodeTableByte Config.default (BitVec.ofNat 8 w)) else none
  else if nbits = 3 then
    if w < 2 ^ 3 then some (decodeOp (BitVec.ofNat 3 w) 0 0) else none
  else none

end Sys2Proof
end

