-- ==== Sys2Proof/Machine/State.lean ====
section
/-! DEFINITION. The state of the block and of what its environment will do (spec 10 R20 to R47, 00 R10, R11), as plain data. -/

namespace Sys2Proof.Machine

/-! ## Enumerations of the registers -/

/-- `version` (10 R31). -/
inductive Version where
  | unknown | v1 | v2Byte | v2Block | mmcV3
  deriving DecidableEq, Repr

/-- `clk_tier` (10 R32). -/
inductive Tier where
  | slow | fast
  deriving DecidableEq, Repr

/-- The status codes of `last_status` and of `DONE` (60 R232). -/
inductive Status where
  | ok | notInitialized | ioError | parameterError
  deriving DecidableEq, Repr

/-- The failure codes of `fail` (60 R230). -/
inductive Fail where
  | none | busTimeout | noInit | timeout | commandRejected | dataTokenError | writeRejected | ocrReadFailed | busyTimeout
  | csdUnsupported
  deriving DecidableEq, Repr

/-- `cs` (10 R37). -/
inductive CsLevel where
  | deasserted | asserted
  deriving DecidableEq, Repr

/-- `path` (10 R40). -/
inductive Path where
  | sd1 | mmc
  deriving DecidableEq, Repr

/-- `op` (10 R29, 30 R82). -/
inductive Op where
  | init | read | write | getver | qcount | qsize | reserved6 | reserved7
  deriving DecidableEq, Repr

/-- `phase` (10 R30). -/
inductive Phase where
  | idle | initReset | initVoltageCheck | initSdv2Wait | initOcrRead | initLegacyProbe | initLegacyWait
  | initForceBlockLength | initSpeedUp
  | rdCommand | rdTokenWait | rdData | rdCrc
  | wrCommand | wrLead | wrData | wrCrc | wrDataResp | wrBusyWait
  | qscCommand | qscTokenWait | qscData | qscCrc
  deriving DecidableEq, Repr

/-! ## The position inside a phase -/

/-- What follows the release byte of a `deselect()`. -/
inductive After where
  /-- the exchange or block span of this command has ended without a failure of its own: return to its caller -/
  | done (c : Cmd)
  /-- the pseudocode's next line is `raise f` -/
  | raise (f : Fail)
  deriving DecidableEq, Repr

/-- The position of the sequencer inside its phase: which event comes next (10 R30 "inside a rule the pseudocode's own control
flow ... gives the position", 41 R128). The received bytes that `receiveTrailingInfo` has not packed yet (41 R124) are locals of
the pseudocode and stand here. -/
inductive Pos where
  /-- no operation in flight: the host moves next (`phase = Idle`, `DONE` emitted) -/
  | idle
  /-- next `CLK(Slow)` (42 R141) -/
  | clkSlow
  /-- next the forced `CS(0)` of 42 R141 -/
  | csForce
  /-- next power-on byte; `sent` have been sent (40 R106) -/
  | powerOn (sent : Nat)
  /-- next `CS(1)` of `sendCommand` (41 R120) -/
  | issue (c : Cmd)
  /-- next `tx(frame[k])` -/
  | frame (c : Cmd) (k : Fin 6)
  /-- next R1 poll read (41 R122) -/
  | poll (c : Cmd)
  /-- next trailing byte `t0` (41 R124) -/
  | trail0 (c : Cmd)
  /-- next trailing byte `t1` -/
  | trail1 (c : Cmd) (t0 : Byte)
  /-- next trailing byte `t2` -/
  | trail2 (c : Cmd) (t0 t1 : Byte)
  /-- next trailing byte `t3` -/
  | trail3 (c : Cmd) (t0 t1 t2 : Byte)
  /-- next token-wait read (43 R173) -/
  | tokenWait
  /-- next data byte received, at `idx` (43 R174, 44 R211) -/
  | data
  /-- next CRC byte received, the first or the second (43 R175) -/
  | crc (second : Bool)
  /-- next the dummy byte (43 R178) -/
  | leadDummy
  /-- next the start token sent (43 R178) -/
  | leadToken
  /-- next data byte sent, at `idx` (43 R179) -/
  | sendData
  /-- next CRC stub byte sent, the first or the second (43 R179) -/
  | stub (second : Bool)
  /-- next the data-response read (43 R180) -/
  | dresp
  /-- next busy-wait read (43 R181) -/
  | busyWait
  /-- next `CS(0)` of `deselect()` (41 R126) -/
  | deselect (a : After)
  /-- next the release byte (41 R126) -/
  | release (a : After)
  /-- next `CS(0)` of the BusTimeout abort path (60 R237) -/
  | abort
  /-- next `CLK(Fast)` (42 R152) -/
  | clkFast
  /-- next `DONE(last_status, fail)` (60 R235) -/
  | done
  deriving DecidableEq, Repr

/-! ## Events and the environment -/

/-- The host buffer (20 R51): offsets strictly rising, no entry equal to what an unlisted offset reads as. -/
abbrev Memory := List Host.Cell

/-- The events of 00 R10. -/
inductive Event where
  /-- `START(op, sector, count)`; `data` is the byte array that is part of the event for a WRITE (20 R51), nothing otherwise -/
  | start (op : Op) (sector count : Word) (data : Memory)
  | clk (t : Tier)
  | cs (l : CsLevel)
  | x (o i : Byte)
  | xt (o : Byte)
  | done (status : Status) (fail : Fail)
  | tick
  deriving DecidableEq, Repr

/-- The transport's answer to one exchange (40 R100): "in exactly one of two ways". -/
inductive Answer where
  | byte (i : Byte)
  | timeout
  deriving DecidableEq, Repr

/-- A move of the host, made only while the block is idle (00 R11, 20 R66, 70 R262, R270). -/
inductive HostMove where
  /-- `START(op, sector, count)` (44 R200) with its argument `buffer`, byte 0 first (20 R51): what a WRITE sends, and what a READ's
  buffer holds before it. No other operation has the argument -/
  | start (op : BitVec 3) (sector count : Word) (buffer : List Byte)
  /-- the host writes a byte of its own newest buffer (20 R51, R66), at any offset (DESIGN CHOICE, log 15) -/
  | poke (off : Nat) (b : Byte)
  /-- hardware reset of the idle block (70 R260) -/
  | reset
  deriving DecidableEq, Repr

/-- Who makes the next step (00 R10: "ticks happen only between steps"). -/
inductive Mover where
  | block | tick
  deriving DecidableEq, Repr

/-- Why a step stops with a fault. -/
inductive Fault where
  /-- Raised by a data byte moved at an offset outside `0 .. count*512 - 1`. 20 R52: such an offset "is never generated". Safe:
  no step from a state of the invariant raises it (log 16). -/
  | hostbufRange (off : Nat)
  deriving DecidableEq, Repr

/-- Why a step or an instruction is refused. -/
inductive Refusal where
  /-- An instruction that has no meaning yet, by its mnemonic. No arm of `exec` raises it. -/
  | notModelled (mnemonic : String)
  /-- Raised by a host operation executed while the block is not idle. 93 U3: "refuse: no such move". Safe for the model, and a
  claim about a host that does it is outside the spec (log 10). `step` never raises it. -/
  | startWhileBusy
  /-- Raised by a command or bus byte executed at a position of the sequencer that is not its place: the bus has no such event
  there (00 R10, 40 R100). Safe; `step` never raises it (log 10). -/
  | noSuchMove
  /-- Raised by `step` under a configuration that breaks a constraint. 00 R7: "A model refuses a configuration that breaks a
  constraint." Safe (log 5). -/
  | badConfiguration
  deriving DecidableEq, Repr

/-! ## The state -/

/-- The registers of 10 R20, the host buffer, the configuration, and the model's own fields (log 1, 5, 11, 12). -/
structure State where
  /-- the parameters (00 R6); no step changes them -/
  cfg : Config
  version : Version
  clkTier : Tier
  lastStatus : Status
  fail : Fail
  ready : Bool
  degraded : Bool
  cs : CsLevel
  busy : Bool
  result : Word
  op : Op
  sector : Word
  count : Word
  blk : Word
  idx : BitVec 10
  arg : Word
  frame : Vector Byte 6
  r1 : Byte
  trailing : Word
  dresp : Byte
  csd : Vector Byte 16
  pollCnt : BitVec 8
  path : Path
  phase : Phase
  cnt : BitVec 16
  ms : Word
  /-- the host buffer (20 R51): the `buffer` argument of the READ or WRITE in flight, or of the last one -/
  hostbuf : Memory
  /-- the host buffers of the READs and WRITEs before it as each was left, newest first: the host's own, the block never reads or
  writes them (20 R51, log 15) -/
  earlier : List Memory
  /-- model's own: the position inside the phase -/
  pos : Pos
  /-- model's own: the local `r55` of 42 R148 -/
  r55 : Byte
  /-- model's own: the host's moves to come -/
  host : List HostMove
  /-- model's own: the transport's answers to come -/
  card : List Answer
  /-- model's own: who moves next; an exhausted list leaves every move to the block -/
  sched : List Mover
  /-- model's own: the events so far, newest first -/
  trace : List Event
  deriving DecidableEq, Repr

/-- After hardware reset (10 R20, R47, 70 R260). The registers the spec leaves unspecified hold 0, or the first value of their
enumeration (DESIGN CHOICE, log 3). -/
def State.reset : State where
  cfg := Config.default
  version := .unknown
  clkTier := .slow
  lastStatus := .notInitialized
  fail := .none
  ready := false
  degraded := false
  cs := .deasserted
  busy := false
  result := 0
  op := .init
  sector := 0
  count := 0
  blk := 0
  idx := 0
  arg := 0
  frame := #v[0, 0, 0, 0, 0, 0]
  r1 := 0
  trailing := 0
  dresp := 0
  csd := #v[0, 0, 0, 0, 0, 0, 0, 0, 0, 0, 0, 0, 0, 0, 0, 0]
  pollCnt := 0
  path := .sd1
  phase := .idle
  cnt := 0
  ms := 0
  hostbuf := []
  earlier := []
  pos := .idle
  r55 := 0
  host := []
  card := []
  sched := []
  trace := []

/-- The outcome of a step or of an instruction. -/
abbrev Result := Host.Outcome State Fault Refusal

end Sys2Proof.Machine
end

