-- ==== Sys2Proof/Machine/Flags.lean ====
section
/-! DEFINITION. The flag views and predicates of R1, the classifications of received bytes, and the numeric encodings of the
enumerations (spec 10 R31 to R33, R41, 30 R74, R78, R79, R82, 60 R230, R232, R234). -/

namespace Sys2Proof.Machine

/-! ## R1 (10 R41, 30 R74) -/

/-- `r1.not_ready`, bit 7. -/
def r1NotReady (r : Byte) : Bool := r.getLsbD 7
/-- `r1.param_err`, bit 6. -/
def r1ParamErr (r : Byte) : Bool := r.getLsbD 6
/-- `r1.addr_err`, bit 5. -/
def r1AddrErr (r : Byte) : Bool := r.getLsbD 5
/-- `r1.erase_seq_err`, bit 4. -/
def r1EraseSeqErr (r : Byte) : Bool := r.getLsbD 4
/-- `r1.crc_err`, bit 3. -/
def r1CrcErr (r : Byte) : Bool := r.getLsbD 3
/-- `r1.illegal_cmd`, bit 2. -/
def r1IllegalCmd (r : Byte) : Bool := r.getLsbD 2
/-- `r1.erase_reset`, bit 1. -/
def r1EraseReset (r : Byte) : Bool := r.getLsbD 1
/-- `r1.idle`, bit 0. -/
def r1IdleFlag (r : Byte) : Bool := r.getLsbD 0

/-- `r1_valid(r) = (r & 0x80) == 0`. -/
def r1Valid (c : Config) (r : Byte) : Bool := r &&& c.r1NotReady == 0
/-- `r1_ok(r) = (r == 0x00)`. -/
def r1Ok (c : Config) (r : Byte) : Bool := r == c.r1Ok
/-- `r1_idle(r) = (r == 0x01)`. -/
def r1Idle (c : Config) (r : Byte) : Bool := r == c.r1Idle
/-- `r1_no_error(r) = (r & 0xFE) == 0`. -/
def r1NoError (r : Byte) : Bool := r &&& 0xFE == 0
/-- `r1_illegal(r) = (r & 0x84) == 0x04`. -/
def r1Illegal (r : Byte) : Bool := r &&& 0x84 == 0x04

/-! ## Tokens, data responses, busy (30 R78 to R80) -/

/-- The class of a byte of the token wait (30 R78), tested in the order of 43 R173. -/
inductive TokenClass where
  | start | idle | error
  deriving DecidableEq, Repr

/-- 30 R78. "The all-ones idle value" is 0xFF itself, not the parameter `IDLE_BYTE`. -/
def tokenClass (c : Config) (b : Byte) : TokenClass :=
  if b = c.tokenStart then .start else if b = 0xFF then .idle else .error

/-- The class of a data-response byte (30 R79, 43 R180). -/
inductive DrespClass where
  | accept | crcError | writeError | other
  deriving DecidableEq, Repr

/-- 30 R79: only `dresp & DR_MASK` is interpreted. -/
def drespClass (c : Config) (b : Byte) : DrespClass :=
  if b &&& c.drMask = c.drAccept then .accept
  else if b &&& c.drMask = c.drCrcErr then .crcError
  else if b &&& c.drMask = c.drWriteErr then .writeError
  else .other

/-- "Classification is exact equality with 0xFF, not a test of one bit" (30 R80). -/
def lineReleased (b : Byte) : Bool := b == 0xFF

/-! ## R7 and R3 (30 R75, R76) -/

/-- The check pattern is echoed: `(t & VCHECK_MASK) == (VCHECK_ARG & VCHECK_MASK)` (42 R145). -/
def patternEchoed (c : Config) (t : Word) : Bool := t &&& c.vcheckMask == c.vcheckArg &&& c.vcheckMask

/-- The high-capacity bit `trailing[CCS_BIT]` (30 R75). -/
def highCapacity (c : Config) (t : Word) : Bool := t.getLsbD c.ccsBit.val

/-! ## Encodings and maps -/

/-- 10 R31. -/
def Version.code : Version → BitVec 3
  | .unknown => 0 | .v1 => 1 | .v2Byte => 2 | .v2Block => 3 | .mmcV3 => 4

/-- 10 R32. -/
def Tier.code : Tier → BitVec 1
  | .slow => 0 | .fast => 1

/-- 10 R37. -/
def CsLevel.code : CsLevel → BitVec 1
  | .deasserted => 0 | .asserted => 1

/-- 60 R232. -/
def Status.code : Status → BitVec 2
  | .ok => 0 | .notInitialized => 1 | .ioError => 2 | .parameterError => 3

/-- 60 R230. -/
def Fail.code : Fail → BitVec 4
  | .none => 0 | .busTimeout => 1 | .noInit => 2 | .timeout => 3 | .commandRejected => 4 | .dataTokenError => 5
  | .writeRejected => 6 | .ocrReadFailed => 7 | .busyTimeout => 8 | .csdUnsupported => 9

/-- 30 R82. -/
def Op.code : Op → BitVec 3
  | .init => 0 | .read => 1 | .write => 2 | .getver => 3 | .qcount => 4 | .qsize => 5 | .reserved6 => 6 | .reserved7 => 7

/-- The map from failure to status (60 R234). -/
def statusOf : Fail → Status
  | .none => .ok
  | .noInit => .notInitialized
  | .ocrReadFailed => .notInitialized
  | .timeout => .ioError
  | .busTimeout => .ioError
  | .commandRejected => .ioError
  | .dataTokenError => .ioError
  | .writeRejected => .ioError
  | .busyTimeout => .ioError
  | .csdUnsupported => .parameterError

end Sys2Proof.Machine
end

