-- ==== Sys2Proof/Machine/Operands.lean ====
section
/-! DEFINITION. Operands: address translation, sector range, buffer offsets, the CSD fields (spec 43 R170, 20 R51, R59, R67,
44 R204, R212, 30 R87). -/

namespace Sys2Proof.Machine

/-- `translate(s)` (43 R170). For `Unknown`: "never called"; the free value of log 6 stands there. -/
def translate (v : Version) (s : Word) : Word :=
  match v with
  | .v2Block => s
  | .v1 => s <<< 9
  | .v2Byte => s <<< 9
  | .mmcV3 => s <<< 9
  | .unknown => Config.untranslated s

/-- `max_sector` (44 R204, 20 R59). -/
def maxSector (v : Version) : Nat :=
  match v with
  | .v2Block => 0xFFFFFFFF
  | .v1 => 0x007FFFFF
  | .v2Byte => 0x007FFFFF
  | .mmcV3 => 0x007FFFFF
  | .unknown => 0x007FFFFF

/-- The parameter checks of 44 R204, in unbounded arithmetic so that none wraps. -/
def parametersOk (v : Version) (sector count : Word) : Bool :=
  count.toNat != 0 && decide (sector.toNat ≤ maxSector v) && decide (count.toNat - 1 ≤ maxSector v - sector.toNat)

/-- The buffer offset of byte `idx` of block `blk`: `blk * 512 + idx`, "an unbounded natural number" (20 R51, R67.3). -/
def bufOffset (c : Config) (blk : Word) (idx : BitVec 10) : Nat := blk.toNat * c.blockLen + idx.toNat

/-- The size of the buffer of the current operation (20 R51). -/
def bufSize (c : Config) (count : Word) : Nat := count.toNat * c.blockLen

/-- The structure version field, `csd[0][7:6]` (30 R87). -/
def csdStructure (csd : Vector Byte 16) : BitVec 2 := csd[0].extractLsb' 6 2

/-- `c_size = (csd[7] & 0x3F) ++ csd[8] ++ csd[9]`, 22 bits (44 R212). -/
def csdSize (csd : Vector Byte 16) : BitVec 22 := csd[7].extractLsb' 0 6 ++ csd[8] ++ csd[9]

/-- `zext_32((c_size + 1) << 10)` (44 R212), in 32 bits. -/
def sectorsOf (cSize : BitVec 22) : Word := (cSize.setWidth 32 + 1) <<< 10

end Sys2Proof.Machine
end

