-- ==== Sys2Proof/Machine/Ops.lean ====
section
/-! DEFINITION. The named operations over memory, ports and timers, and how an operation ends: completion, refusal, and the abort
path that a failure takes (spec 20 R52, 40 R100 to R107, 60 R235 to R238, R244 to R246). -/

namespace Sys2Proof.Machine

/-! ## Memory -/

/-- What an unlisted byte of the host buffer reads as (DESIGN CHOICE, log 4). -/
def Memory.blank : Byte := 0x00

/-- The canonical form: offsets strictly rising, no entry equal to what an unlisted offset reads as. -/
abbrev Memory.wf (m : Memory) : Prop :=
  m.Pairwise (fun x y => x.1 < y.1) ∧ ∀ c ∈ m, c.2 ≠ Memory.blank

/-- `MemRead(hostbuf, off, 1)` (20 R52). -/
def Memory.read : Memory → Nat → Byte
  | [], _ => Memory.blank
  | (a, b) :: rest, off => if off = a then b else Memory.read rest off

/-- `MemWrite(hostbuf, off, 1, v)` (20 R52), keeping the canonical form. -/
def Memory.write : Memory → Nat → Byte → Memory
  | [], off, v => if v = Memory.blank then [] else [(off, v)]
  | (a, b) :: rest, off, v =>
    if off < a then (if v = Memory.blank then (a, b) :: rest else (off, v) :: (a, b) :: rest)
    else if off = a then (if v = Memory.blank then rest else (off, v) :: rest)
    else (a, b) :: Memory.write rest off v

/-- The buffer whose bytes, from offset `off` on, are a given byte array (20 R51), in canonical form. -/
def Memory.ofBytesAt (off : Nat) : List Byte → Memory
  | [] => []
  | b :: bs => if b = Memory.blank then Memory.ofBytesAt (off + 1) bs else (off, b) :: Memory.ofBytesAt (off + 1) bs

/-- The `buffer` argument of a START taken from the host (20 R51): for a READ or a WRITE (30 R82), its first `count * 512` bytes are
the host buffer of the operation, and the buffer before it stays the host's (log 15). -/
def presented (op : BitVec 3) (count : Word) (buffer : List Byte) (s : State) : State :=
  if op = 1 ∨ op = 2 then
    { s with hostbuf := Memory.ofBytesAt 0 (buffer.take (bufSize s.cfg count)), earlier := s.hostbuf :: s.earlier }
  else s

/-- An access inside the current operation's buffer (20 R51). Outside it nothing exists: the fault of log 16. -/
def withinBuffer (s : State) (k : Nat → Result) : Result :=
  let off := bufOffset s.cfg s.blk s.idx
  if off < bufSize s.cfg s.count then k off else .fault (.hostbufRange off)

/-! ## Events -/

/-- Emits an event (00 R10). -/
def emit (e : Event) (s : State) : State := { s with trace := e :: s.trace }

/-- `cs <- l` (40 R103): emits `CS` and sets the register. -/
def driveCs (l : CsLevel) (s : State) : State := emit (.cs l) { s with cs := l }

/-- `clk_tier <- t` (40 R107): emits `CLK` and sets the register. -/
def driveClk (t : Tier) (s : State) : State := emit (.clk t) { s with clkTier := t }

/-! ## The timers -/

/-- `TICK` (60 R244): `ms` counts modulo 2^32, `cnt` saturates at 0. -/
def tick (s : State) : State :=
  emit .tick { s with ms := s.ms + 1, cnt := if s.cnt = 0 then 0 else s.cnt - 1 }

/-- `cnt <- v` (60 R245). -/
def loadCnt (v : BitVec 16) (s : State) : State := { s with cnt := v }

/-- `expired()` (60 R246). -/
def expired (s : State) : Bool := s.cnt == 0

/-! ## The end of an operation -/

/-- `complete(F)` (60 R235) up to its event: `DONE` is the next step (00 R10, log 2). -/
def complete (f : Fail) (s : State) : State :=
  { s with fail := f, lastStatus := statusOf f, phase := .idle, busy := false, pos := .done }

/-- `refuse(S)` (60 R235) up to its event. -/
def refuse (st : Status) (s : State) : State :=
  { s with fail := .none, lastStatus := st, phase := .idle, busy := false, pos := .done }

/-- `initFailureState()` (60 R238): no `CLK` event, `clk_tier` left as it is. -/
def initFailureState (s : State) : State := { s with ready := false, version := .unknown }

/-- TAKING A FAILURE (60 R236, and the end of R237): abandons the operation's pseudocode. Nothing else is undone. -/
def raiseFail (f : Fail) (s : State) : State :=
  complete f (if s.op = .init then initFailureState s else s)

/-- `raise BusTimeout` (60 R237): chip-select, if asserted, is released by the next event (without release byte, 41 R127);
otherwise the failure is taken at once. -/
def busTimeout (s : State) : State :=
  if s.cs = .asserted then { s with pos := .abort } else raiseFail .busTimeout s

/-! ## The byte exchange -/

/-- A completed exchange `X(o, i)` (40 R100): the transport's answer is used up. -/
def exchanged (o i : Byte) (s : State) : State := emit (.x o i) { s with card := s.card.tail }

/-- An exchange the transport did not complete, `XT(o)` (40 R100), and the failure it raises. -/
def timedOut (o : Byte) (s : State) : State := busTimeout (emit (.xt o) { s with card := s.card.tail })

/-- `xfer(o)` (40 R100), the pseudocode after it being `k`. With no answer yet the block waits (log 1). -/
def exchange (o : Byte) (k : Byte → State → Result) (s : State) : Result :=
  match s.card with
  | [] => .next s
  | .byte i :: _ => k i (exchanged o i s)
  | .timeout :: _ => .next (timedOut o s)

/-- `rx()` (40 R102) that has received `i`. -/
def received (i : Byte) (s : State) : State := exchanged s.cfg.idleByte i s

end Sys2Proof.Machine
end

