-- ==== Sys2Proof/Machine/Sequencer.lean ====
section
/-! DEFINITION. The sequencer: the pseudocode of the rules between two events (spec 41 R120 to R129, 42 R140 to R153, 43 R171 to
R181, 44 R203 to R212). Each definition is the tail of a step of 00 R10: the register writes and tests up to the next event. -/

namespace Sys2Proof.Machine

/-! ## sendCommand and deselect -/

/-- The call `sendCommand(index, a)` up to its first event: `arg <- a` (41 R120). -/
def issue (c : Cmd) (s : State) (a : Word) : State := { s with arg := a, pos := .issue c }

/-- The call of a command whose argument is a constant (30 R72). -/
def issueConst (c : Cmd) (s : State) : State := issue c s (c.argument s.cfg 0)

/-- `deselect()` up to its first event, what follows its release byte being `a` (41 R126). -/
def deselect (a : After) (s : State) : State := { s with pos := .deselect a }

/-- After frame byte `k` (41 R120): the next one, or `poll_cnt <- R1_POLL_BUDGET` and the first poll read. -/
def afterFrameByte (c : Cmd) (k : Fin 6) (s : State) : State :=
  if h : k.val + 1 < 6 then { s with pos := .frame c ⟨k.val + 1, h⟩ }
  else { s with pollCnt := s.cfg.r1PollBudget, pos := .poll c }

/-! ## Block I/O: entries (43) -/

/-- `translate(sector + blk)` (30 R88, 44 R205). -/
def blockAddress (s : State) : Word := translate s.version (s.sector + s.blk)

/-- `readBlock` up to its first event (43 R171, R172). -/
def beginReadBlock (s : State) : State := issue .cmd17 { s with phase := .rdCommand } (blockAddress s)

/-- `writeBlock` up to its first event (43 R176, R177). -/
def beginWriteBlock (s : State) : State := issue .cmd24 { s with phase := .wrCommand } (blockAddress s)

/-- `waitToken()` up to its first event (43 R173). -/
def beginTokenWait (p : Phase) (s : State) : State := loadCnt s.cfg.tToken { s with phase := p, pos := .tokenWait }

/-- `busyWait()` up to its first event (43 R181). -/
def beginBusyWait (s : State) : State := loadCnt s.cfg.tBusy { s with phase := .wrBusyWait, pos := .busyWait }

/-! ## Initialize: entries and tails (42) -/

/-- `speedUp()` up to its event (42 R152). -/
def beginSpeedUp (s : State) : State := { s with phase := .initSpeedUp, pos := .clkFast }

/-- `forceBlockLength()` up to its first event (42 R151). -/
def beginForceBlockLength (s : State) : State :=
  let s := { s with phase := .initForceBlockLength }
  match s.version with
  | .v2Byte => issueConst .cmd16 s
  | .v1 => issueConst .cmd16 s
  | .mmcV3 => issueConst .cmd16 s
  | .v2Block => beginSpeedUp s
  | .unknown => beginSpeedUp s

/-- `resetCard()` after its exchange (42 R143). -/
def afterReset (s : State) : State :=
  if r1Idle s.cfg s.r1 then issueConst .cmd8 { s with phase := .initVoltageCheck } else raiseFail .noInit s

/-- `sdv2Wait()` up to its first event (42 R146). -/
def beginSdv2Wait (s : State) : State :=
  issueConst .cmd55 (loadCnt s.cfg.tOpcond { s with phase := .initSdv2Wait })

/-- `legacyProbe()` up to its first event (42 R148). -/
def beginLegacyProbe (s : State) : State :=
  issueConst .cmd55 (loadCnt s.cfg.tOpcond { s with phase := .initLegacyProbe })

/-- `voltageCheck()` after its `deselect()`: `checkPattern` (42 R145) and the choice of the path (42 R140, R144). -/
def afterVoltageCheck (s : State) : State :=
  if r1NoError s.r1 then
    if patternEchoed s.cfg s.trailing then beginSdv2Wait s
    else match s.cfg.pVcheckMismatch with
      | .fail => raiseFail .noInit s
      | .degrade => beginSdv2Wait { s with degraded := true }
  else beginLegacyProbe s

/-- The loop test of `sdv2Wait()` after ACMD41 (42 R146): success first, then the countdown. -/
def afterSdv2OpCond (s : State) : State :=
  if r1Ok s.cfg s.r1 then issueConst .cmd58 { s with phase := .initOcrRead }
  else if expired s then raiseFail .timeout s
  else issueConst .cmd55 s

/-- `ocrRead()` after its `deselect()` (42 R147). -/
def afterOcr (s : State) : State :=
  if r1Ok s.cfg s.r1 then
    beginForceBlockLength { s with version := if highCapacity s.cfg s.trailing then .v2Block else .v2Byte }
  else raiseFail .ocrReadFailed s

/-- The loop head of `legacySdWait()` with `r` in `r1` (42 R149). -/
def legacySdTest (s : State) : State :=
  if r1Ok s.cfg s.r1 then beginForceBlockLength { s with version := .v1 }
  else if expired s then raiseFail .timeout s
  else issueConst .cmd55 s

/-- After the legacy ACMD41: the probe's choice of `path` (42 R148), then the loop of the path chosen (42 R149, R150). -/
def afterLegacyOpCond (s : State) : State :=
  if s.phase = .initLegacyProbe then
    if r1Illegal s.r55 || r1Illegal s.r1 then
      issueConst .cmd1 { s with path := .mmc, phase := .initLegacyWait }
    else legacySdTest { s with path := .sd1, phase := .initLegacyWait }
  else legacySdTest s

/-- After CMD55: its R1 is kept by the probe (42 R148) and not examined by the loops (42 R146, R149); ACMD41 follows. -/
def afterMarker (s : State) : State :=
  if s.phase = .initSdv2Wait then issueConst .acmd41Hcs s
  else if s.phase = .initLegacyProbe then issueConst .acmd41Legacy { s with r55 := s.r1 }
  else issueConst .acmd41Legacy s

/-- The loop test of `legacyMmcWait()` (42 R150). -/
def afterLegacyInitiate (s : State) : State :=
  if r1Ok s.cfg s.r1 then beginForceBlockLength { s with version := .mmcV3 }
  else if expired s then raiseFail .timeout s
  else issueConst .cmd1 s

/-- `forceBlockLength()` after CMD16 (42 R151). -/
def afterBlockLength (s : State) : State :=
  if r1Ok s.cfg s.r1 then beginSpeedUp s
  else match s.cfg.pBlocklenFail with
    | .fail => raiseFail .noInit s
    | .degrade => beginSpeedUp { s with degraded := true }

/-- `finish()` up to its event (42 R153). -/
def finishInit (s : State) : State :=
  complete .none { s with version := if s.degraded then .unknown else s.version, ready := true }

/-! ## Host operations: tails (44) -/

/-- `readBlock` has returned (44 R205): the block is counted, its release byte included (log 13); the next block, or the end. -/
def afterReadBlock (s : State) : State :=
  let s := { s with blk := s.blk + 1 }
  if s.blk < s.count then beginReadBlock s else complete .none s

/-- `writeBlock` has returned (44 R206); `blk` already counts the block (`busyByte`, log 13). -/
def afterWriteBlock (s : State) : State :=
  if s.blk < s.count then beginWriteBlock s else complete .none s

/-- `parseCsd()` and the end of QuerySectorCount (44 R212, R209). -/
def parseCsd (s : State) : State :=
  if csdStructure s.csd ≠ 1 then raiseFail .csdUnsupported s
  else if csdSize s.csd = 0x3FFFFF then raiseFail .csdUnsupported s
  else complete .none { s with result := sectorsOf (csdSize s.csd) }

/-! ## The end of an R1 poll and of a chip-select span -/

/-- What the caller of `sendCommand` does with the returned byte while chip-select is still asserted: the data phase (43 R172,
R177, 44 R211), the trailing bytes (42 R144, R147), or `deselect()`. -/
def afterPoll (c : Cmd) (s : State) : State :=
  match c with
  | .cmd8 => if r1NoError s.r1 then { s with pos := .trail0 .cmd8 } else deselect (.done .cmd8) s
  | .cmd58 => if r1Ok s.cfg s.r1 then { s with pos := .trail0 .cmd58 } else deselect (.done .cmd58) s
  | .cmd17 => if r1Ok s.cfg s.r1 then beginTokenWait .rdTokenWait s else deselect (.raise .commandRejected) s
  | .cmd24 =>
    if r1Ok s.cfg s.r1 then { s with phase := .wrLead, pos := .leadDummy } else deselect (.raise .commandRejected) s
  | .cmd9 => if r1Ok s.cfg s.r1 then beginTokenWait .qscTokenWait s else deselect (.raise .commandRejected) s
  | .cmd0 => deselect (.done .cmd0) s
  | .cmd55 => deselect (.done .cmd55) s
  | .acmd41Hcs => deselect (.done .acmd41Hcs) s
  | .acmd41Legacy => deselect (.done .acmd41Legacy) s
  | .cmd1 => deselect (.done .cmd1) s
  | .cmd16 => deselect (.done .cmd16) s

/-- What follows the release byte of a span that ended without a failure of its own. -/
def afterSpan (c : Cmd) (s : State) : State :=
  match c with
  | .cmd0 => afterReset s
  | .cmd8 => afterVoltageCheck s
  | .cmd55 => afterMarker s
  | .acmd41Hcs => afterSdv2OpCond s
  | .acmd41Legacy => afterLegacyOpCond s
  | .cmd58 => afterOcr s
  | .cmd1 => afterLegacyInitiate s
  | .cmd16 => afterBlockLength s
  | .cmd17 => afterReadBlock s
  | .cmd24 => afterWriteBlock s
  | .cmd9 => parseCsd s

/-- What follows the release byte (41 R126): the pseudocode's `raise`, or the return to the caller. -/
def afterRelease (a : After) (s : State) : State :=
  match a with
  | .done c => afterSpan c s
  | .raise f => raiseFail f s

/-! ## One received byte at each place -/

/-- One turn of the R1 poll (41 R120, R122): latch, count, and stop at a byte with bit 7 clear or at the end of the budget. -/
def pollByte (c : Cmd) (b : Byte) (s : State) : State :=
  let s := { s with r1 := b, pollCnt := s.pollCnt - 1 }
  if r1Valid s.cfg b || s.pollCnt == 0 then afterPoll c s else s

/-- After a power-on byte (40 R106): the next one, or the reset command. -/
def powerOnByte (sent : Nat) (s : State) : State :=
  if sent + 1 < s.cfg.powerOnBytes then { s with pos := .powerOn (sent + 1) } else issueConst .cmd0 s

/-- The fourth trailing byte: `trailing <- t0 ++ t1 ++ t2 ++ t3`, then `deselect()` (41 R124, 42 R144, R147). -/
def lastTrailingByte (c : Cmd) (t0 t1 t2 t3 : Byte) (s : State) : State :=
  deselect (.done c) { s with trailing := packWord t0 t1 t2 t3 }

/-- A byte of the token wait, the three tests in the order of 43 R173. -/
def tokenByte (b : Byte) (s : State) : State :=
  match tokenClass s.cfg b with
  | .start =>
    if s.phase = .qscTokenWait then { s with phase := .qscData, idx := 0, pos := .data }
    else { s with phase := .rdData, idx := 0, pos := .data }
  | .error => deselect (.raise .dataTokenError) s
  | .idle => if expired s then deselect (.raise .dataTokenError) s else s

/-- A CSD byte received (44 R211). -/
def csdByte (b : Byte) (s : State) : State :=
  let s := { s with csd := s.csd.setIfInBounds s.idx.toNat b }
  if s.idx.toNat + 1 < s.cfg.csdLen then { s with idx := s.idx + 1 } else { s with phase := .qscCrc, pos := .crc false }

/-- After a data byte of a block was stored: `for idx in 0 .. 511` (43 R174). -/
def afterDataByte (s : State) : State :=
  if s.idx.toNat + 1 < s.cfg.blockLen then { s with idx := s.idx + 1 } else { s with phase := .rdCrc, pos := .crc false }

/-- A data byte received: into `csd` (44 R211), or into the host buffer in the same step (43 R174, 20 R52). -/
def dataByte (b : Byte) (s : State) : Result :=
  if s.phase = .qscData then .next (csdByte b s)
  else withinBuffer s fun off => .next (afterDataByte { s with hostbuf := s.hostbuf.write off b })

/-- A CRC byte received and discarded (43 R175, 44 R211); after the second, `deselect()`. -/
def crcByteReceived (second : Bool) (s : State) : State :=
  if second then deselect (.done (if s.phase = .qscCrc then .cmd9 else .cmd17)) s else { s with pos := .crc true }

/-- After the start token was sent (43 R178, R179). -/
def beginSendData (s : State) : State := { s with phase := .wrData, idx := 0, pos := .sendData }

/-- After a data byte was sent (43 R179). -/
def afterSentByte (s : State) : State :=
  if s.idx.toNat + 1 < s.cfg.blockLen then { s with idx := s.idx + 1 } else { s with phase := .wrCrc, pos := .stub false }

/-- After a CRC stub byte (43 R179). -/
def afterStub (second : Bool) (s : State) : State :=
  if second then { s with phase := .wrDataResp, pos := .dresp } else { s with pos := .stub true }

/-- The data-response byte (43 R180): accepted, or rejected whatever the pattern (30 R79). -/
def drespByte (b : Byte) (s : State) : State :=
  let s := { s with dresp := b }
  match drespClass s.cfg b with
  | .accept => beginBusyWait s
  | .crcError => deselect (.raise .writeRejected) s
  | .writeError => deselect (.raise .writeRejected) s
  | .other => deselect (.raise .writeRejected) s

/-- A byte of the busy-wait (43 R181): released first, then the countdown. The block is counted here, before its `deselect()`: a failed
WRITE ends "with `blk` the number of blocks whose busy-wait ended" (44 R206; log 13). -/
def busyByte (b : Byte) (s : State) : State :=
  if lineReleased b then deselect (.done .cmd24) { s with blk := s.blk + 1 }
  else if expired s then deselect (.raise .busyTimeout) s
  else s

/-- What the sequencer does with the byte `b` that an exchange sending `IDLE_BYTE` has received (40 R102), by position. -/
def idleExchanged (b : Byte) (s : State) : Result :=
  match s.pos with
  | .powerOn sent => .next (powerOnByte sent s)
  | .poll c => .next (pollByte c b s)
  | .trail0 c => .next { s with pos := .trail1 c b }
  | .trail1 c t0 => .next { s with pos := .trail2 c t0 b }
  | .trail2 c t0 t1 => .next { s with pos := .trail3 c t0 t1 b }
  | .trail3 c t0 t1 t2 => .next (lastTrailingByte c t0 t1 t2 b s)
  | .tokenWait => .next (tokenByte b s)
  | .data => dataByte b s
  | .crc second => .next (crcByteReceived second s)
  | .leadDummy => .next { s with pos := .leadToken }
  | .stub second => .next (afterStub second s)
  | .dresp => .next (drespByte b s)
  | .busyWait => .next (busyByte b s)
  | .release a => .next (afterRelease a s)
  | .idle | .clkSlow | .csForce | .issue _ | .frame _ _ | .leadToken | .sendData | .deselect _ | .abort | .clkFast | .done =>
    .refused .noSuchMove

/-! ## Steps that are no row of the opcode table -/

/-- A frame byte (41 R120): the received byte is discarded. -/
def sendFrameByte (c : Cmd) (k : Fin 6) (s : State) : Result :=
  exchange s.frame[k] (fun _ t => .next (afterFrameByte c k t)) s

/-- A data byte sent, read from the host buffer in the same step (43 R179, 20 R52): the received byte is discarded. -/
def sendDataByte (s : State) : Result :=
  withinBuffer s fun off => exchange (s.hostbuf.read off) (fun _ t => .next (afterSentByte t)) s

/-- `CLK(Slow)` and the conditional deassert (42 R141). -/
def clockDown (s : State) : State :=
  let s := driveClk .slow s
  if s.cs = .asserted then { s with pos := .csForce } else { s with pos := .powerOn 0 }

/-- `DONE(last_status, fail)` (60 R235): the block is idle for the host. -/
def emitDone (s : State) : State := emit (.done s.lastStatus s.fail) { s with pos := .idle }

/-- Hardware reset of an idle block (70 R260): no event; the buffer, the configuration and the environment are not the block's. -/
def hardwareReset (s : State) : State :=
  { State.reset with
    cfg := s.cfg, hostbuf := s.hostbuf, earlier := s.earlier, host := s.host, card := s.card, sched := s.sched, trace := s.trace }

/-- The step of the block where no row of the table is fetched. An idle host writes its newest buffer at any offset, also past the
`count * 512` bytes of 20 R51 and before any START has given a buffer (DESIGN CHOICE, log 15). -/
def sequence (s : State) : Result :=
  match s.pos with
  | .idle =>
    match s.host with
    | [] => .next s
    | .poke off b :: rest => .next { s with host := rest, hostbuf := s.hostbuf.write off b }
    | .reset :: rest => .next (hardwareReset { s with host := rest })
    | .start _ _ _ _ :: _ => .refused .noSuchMove
  | .clkSlow => .next (clockDown s)
  | .csForce => .next { driveCs .deasserted s with pos := .powerOn 0 }
  | .frame c k => sendFrameByte c k s
  | .sendData => sendDataByte s
  | .deselect a => .next { driveCs .deasserted s with pos := .release a }
  | .abort => .next (raiseFail .busTimeout (driveCs .deasserted s))
  | .clkFast => .next (finishInit (driveClk .fast s))
  | .done => .next (emitDone s)
  | .powerOn _ | .issue _ | .poll _ | .trail0 _ | .trail1 _ _ | .trail2 _ _ _ | .trail3 _ _ _ _ | .tokenWait | .data
  | .crc _ | .leadDummy | .leadToken | .stub _ | .dresp | .busyWait | .release _ => .refused .noSuchMove

end Sys2Proof.Machine
end

