-- ==== Sys2Proof/Machine/BusBytes.lean ====
section
/-! DEFINITION. The meanings of the seven byte rows: one exchange each (spec 30 R74, R78 to R81, 40 R102, 41 R122, 43 R173, R178,
R180; log 9). -/

namespace Sys2Proof.Machine

/-- IDLE_BYTE (40 R102): the exchange that sends the idle byte, for every `rx()`, power-on, release, dummy and stub byte, whatever
the transport answers; what the received byte does is the position's. -/
def execIdleByte (s : State) : Result :=
  match s.pos with
  | .powerOn _ | .poll _ | .trail0 _ | .trail1 _ _ | .trail2 _ _ _ | .trail3 _ _ _ _ | .tokenWait | .data | .crc _
  | .leadDummy | .stub _ | .dresp | .busyWait | .release _ => exchange s.cfg.idleByte idleExchanged s
  | .idle | .clkSlow | .csForce | .issue _ | .frame _ _ | .leadToken | .sendData | .deselect _ | .abort | .clkFast | .done =>
    .refused .noSuchMove

/-- TOKEN_START: received in the token wait (43 R173), or sent before the data of a write (43 R178). -/
def execTokenStart (s : State) : Result :=
  match s.pos with
  | .tokenWait => .next (tokenByte s.cfg.tokenStart (received s.cfg.tokenStart s))
  | .leadToken => exchange s.cfg.tokenStart (fun _ t => .next (beginSendData t)) s
  | .idle | .clkSlow | .csForce | .powerOn _ | .issue _ | .frame _ _ | .poll _ | .trail0 _ | .trail1 _ _ | .trail2 _ _ _
  | .trail3 _ _ _ _ | .data | .crc _ | .leadDummy | .sendData | .stub _ | .dresp | .busyWait | .deselect _ | .release _
  | .abort | .clkFast | .done => .refused .noSuchMove

/-- A byte received by the R1 poll (41 R122). -/
def pollReceives (b : Byte) (s : State) : Result :=
  match s.pos with
  | .poll c => .next (pollByte c b (received b s))
  | .idle | .clkSlow | .csForce | .powerOn _ | .issue _ | .frame _ _ | .trail0 _ | .trail1 _ _ | .trail2 _ _ _
  | .trail3 _ _ _ _ | .tokenWait | .data | .crc _ | .leadDummy | .leadToken | .sendData | .stub _ | .dresp | .busyWait
  | .deselect _ | .release _ | .abort | .clkFast | .done => .refused .noSuchMove

/-- R1_NOT_READY (30 R74): not a response; the poll goes on, or its budget ends. -/
def execR1NotReady (b : Byte) (s : State) : Result := pollReceives b s

/-- R1_VALID (30 R74): the R1 byte. -/
def execR1Valid (b : Byte) (s : State) : Result := pollReceives b s

/-- The data-response byte received (43 R180). -/
def drespReceives (b : Byte) (s : State) : Result :=
  match s.pos with
  | .dresp => .next (drespByte b (received b s))
  | .idle | .clkSlow | .csForce | .powerOn _ | .issue _ | .frame _ _ | .poll _ | .trail0 _ | .trail1 _ _ | .trail2 _ _ _
  | .trail3 _ _ _ _ | .tokenWait | .data | .crc _ | .leadDummy | .leadToken | .sendData | .stub _ | .busyWait
  | .deselect _ | .release _ | .abort | .clkFast | .done => .refused .noSuchMove

/-- DRESP_ACCEPT (30 R79): the busy-wait follows. -/
def execDrespAccept (b : Byte) (s : State) : Result := drespReceives b s

/-- DRESP_CRC_ERR (30 R79): `WriteRejected` after `deselect()`. -/
def execDrespCrcErr (b : Byte) (s : State) : Result := drespReceives b s

/-- DRESP_WRITE_ERR (30 R79): `WriteRejected` after `deselect()`. -/
def execDrespWriteErr (b : Byte) (s : State) : Result := drespReceives b s

end Sys2Proof.Machine
end

