-- ==== Sys2Proof/Machine/Commands.lean ====
section
/-! DEFINITION. The meanings of the eleven command rows (spec 30 R72, 41 R120, R121): the step that drives CS(1) and latches the
frame. The six frame bytes, the R1 poll and what the caller does follow one event a step (Machine/Sequencer.lean, log 9). -/

namespace Sys2Proof.Machine

/-- `sendCommand(index, a)` (41 R120): `arg <- a`, `CS(1)`, the frame assembled. Executed where the sequencer calls the command;
"Precondition: `cs = Deasserted`" holds at those places by the invariant of Safety.lean. -/
def sendCommand (c : Cmd) (a : Word) (s : State) : Result :=
  if s.pos = .issue c then
    .next { driveCs .asserted { s with arg := a } with frame := frameOf s.cfg (c.index s.cfg) a, pos := .frame c 0 }
  else .refused .noSuchMove

/-- CMD0, the reset command (42 R143). -/
def execCmd0 (s : State) : Result := sendCommand .cmd0 (Cmd.cmd0.argument s.cfg 0) s

/-- CMD8, the voltage check (42 R144). -/
def execCmd8 (s : State) : Result := sendCommand .cmd8 (Cmd.cmd8.argument s.cfg 0) s

/-- CMD55, the leading marker (42 R146, R148, R149). -/
def execCmd55 (s : State) : Result := sendCommand .cmd55 (Cmd.cmd55.argument s.cfg 0) s

/-- ACMD41 with the high-capacity request (42 R146). -/
def execAcmd41Hcs (s : State) : Result := sendCommand .acmd41Hcs (Cmd.acmd41Hcs.argument s.cfg 0) s

/-- ACMD41 with argument 0 (42 R148, R149). -/
def execAcmd41Legacy (s : State) : Result := sendCommand .acmd41Legacy (Cmd.acmd41Legacy.argument s.cfg 0) s

/-- CMD58, the OCR read (42 R147). -/
def execCmd58 (s : State) : Result := sendCommand .cmd58 (Cmd.cmd58.argument s.cfg 0) s

/-- CMD1, the legacy initiate (42 R150). -/
def execCmd1 (s : State) : Result := sendCommand .cmd1 (Cmd.cmd1.argument s.cfg 0) s

/-- CMD16, set block length (42 R151). -/
def execCmd16 (s : State) : Result := sendCommand .cmd16 (Cmd.cmd16.argument s.cfg 0) s

/-- CMD17, single-block read, with the translated address (43 R172). -/
def execCmd17 (arg : Word) (s : State) : Result := sendCommand .cmd17 arg s

/-- CMD24, single-block write, with the translated address (43 R177). -/
def execCmd24 (arg : Word) (s : State) : Result := sendCommand .cmd24 arg s

/-- CMD9, card-size register read (44 R211). -/
def execCmd9 (s : State) : Result := sendCommand .cmd9 (Cmd.cmd9.argument s.cfg 0) s

end Sys2Proof.Machine
end

