-- ==== Sys2Proof/Machine/HostOps.lean ====
section
/-! DEFINITION. The meanings of the eight host operations (spec 44 R200 to R209, 42 R140): the step of the event START, with the
register writes and admission tests the pseudocode makes before the block's first event of its own (00 R10, log 9). -/

namespace Sys2Proof.Machine

/-- The byte array that is part of the START event (20 R51): for a WRITE, what it is to send. -/
def startData (o : Op) (s : State) : Memory := if o = .write then s.hostbuf else []

/-- `on START(o, s, c)` (44 R200): latch the operands, raise `busy`, dispatch to `body`. A START while the block is not idle is
no move of the host (70 R270, 93 U3). -/
def startOp (o : Op) (sector count : Word) (body : State → State) (s : State) : Result :=
  if s.pos = .idle then
    .next (body (emit (.start o sector count (startData o s)) { s with op := o, sector := sector, count := count, busy := true }))
  else .refused .startWhileBusy

/-- The session check (44 R203). -/
def sessionOk (s : State) : Bool := s.ready && s.version != .unknown

/-- Admission of READ and WRITE (44 R202 to R204): the session check first, then the parameter checks. -/
def admitBlocks (body : State → State) (s : State) : State :=
  if sessionOk s then
    if parametersOk s.version s.sector s.count then body s else refuse .parameterError s
  else refuse .notInitialized s

/-- `Initialize()` up to `CLK(Slow)` (42 R140): "always admitted, in any session state". -/
def beginInit (s : State) : State :=
  { s with ready := false, version := .unknown, degraded := false, phase := .initReset, pos := .clkSlow }

/-- INIT (42 R140). -/
def execInit (sector count : Word) (s : State) : Result := startOp .init sector count beginInit s

/-- READ (44 R205). -/
def execRead (sector count : Word) (s : State) : Result :=
  startOp .read sector count (admitBlocks fun t => beginReadBlock { t with blk := 0 }) s

/-- WRITE (44 R206). -/
def execWrite (sector count : Word) (s : State) : Result :=
  startOp .write sector count (admitBlocks fun t => beginWriteBlock { t with blk := 0 }) s

/-- GETVER (44 R207): `result <- zext_32(encoding of version)`. -/
def execGetver (sector count : Word) (s : State) : Result :=
  startOp .getver sector count (fun t => complete .none { t with result := t.version.code.setWidth 32 }) s

/-- QCOUNT (44 R209): the HAS_QSC test, the session check, then `readCsd()` up to its first event (44 R211). -/
def execQcount (sector count : Word) (s : State) : Result :=
  startOp .qcount sector count (fun t =>
    if t.cfg.hasQsc then
      if sessionOk t then issueConst .cmd9 { t with phase := .qscCommand } else refuse .notInitialized t
    else refuse .parameterError t) s

/-- QSIZE (44 R208): `result <- 512`. -/
def execQsize (sector count : Word) (s : State) : Result :=
  startOp .qsize sector count (fun t => complete .none { t with result := BitVec.ofNat 32 t.cfg.blockLen }) s

/-- Op 6 (44 R201): refused, "no bus event". -/
def execReserved6 (sector count : Word) (s : State) : Result :=
  startOp .reserved6 sector count (refuse .parameterError) s

/-- Op 7 (44 R201): refused, "no bus event". -/
def execReserved7 (sector count : Word) (s : State) : Result :=
  startOp .reserved7 sector count (refuse .parameterError) s

end Sys2Proof.Machine
end

