-- ==== Sys2Proof/Machine/Dispatch.lean ====
section
/-! DEFINITION. One arm per row of spec/opcode_table.json. -/

namespace Sys2Proof.Machine

def exec (i : Instr) (s : State) : Host.Outcome State Fault Refusal :=
  match i with
  -- command frames
  | .cmd0 => Sys2Proof.Machine.execCmd0 s
  | .cmd8 => Sys2Proof.Machine.execCmd8 s
  | .cmd55 => Sys2Proof.Machine.execCmd55 s
  | .acmd41Hcs => Sys2Proof.Machine.execAcmd41Hcs s
  | .acmd41Legacy => Sys2Proof.Machine.execAcmd41Legacy s
  | .cmd58 => Sys2Proof.Machine.execCmd58 s
  | .cmd1 => Sys2Proof.Machine.execCmd1 s
  | .cmd16 => Sys2Proof.Machine.execCmd16 s
  | .cmd17 arg => Sys2Proof.Machine.execCmd17 arg s
  | .cmd24 arg => Sys2Proof.Machine.execCmd24 arg s
  | .cmd9 => Sys2Proof.Machine.execCmd9 s
  -- host operations
  | .init sector count => Sys2Proof.Machine.execInit sector count s
  | .read sector count => Sys2Proof.Machine.execRead sector count s
  | .write sector count => Sys2Proof.Machine.execWrite sector count s
  | .getver sector count => Sys2Proof.Machine.execGetver sector count s
  | .qcount sector count => Sys2Proof.Machine.execQcount sector count s
  | .qsize sector count => Sys2Proof.Machine.execQsize sector count s
  | .reserved6 sector count => Sys2Proof.Machine.execReserved6 sector count s
  | .reserved7 sector count => Sys2Proof.Machine.execReserved7 sector count s
  -- bytes on the bus
  | .tokenStart => Sys2Proof.Machine.execTokenStart s
  | .idleByte => Sys2Proof.Machine.execIdleByte s
  | .r1NotReady b => Sys2Proof.Machine.execR1NotReady b s
  | .r1Valid b => Sys2Proof.Machine.execR1Valid b s
  | .drespAccept b => Sys2Proof.Machine.execDrespAccept b s
  | .drespCrcErr b => Sys2Proof.Machine.execDrespCrcErr b s
  | .drespWriteErr b => Sys2Proof.Machine.execDrespWriteErr b s

end Sys2Proof.Machine
end

