-- ==== Sys2Proof/Machine/Fetch.lean ====
section
/-! DEFINITION. Which row of the table the next step executes, and where (spec 10 R30: "`phase` selects which rule's pseudocode is
running"): the block fetches no instruction memory, so the row is the one the position, the host's START or the transport's answer
gives (log 7, log 9). -/

namespace Sys2Proof.Machine

/-- The row of a byte the R1 poll receives; with a timeout, or no answer yet, the exchange itself (IDLE_BYTE). -/
def fetchPoll (s : State) : Instr :=
  match s.card with
  | .byte b :: _ => decodeR1 b
  | .timeout :: _ => .idleByte
  | [] => .idleByte

/-- The row of a byte of the token wait: the start token; any other byte only completes an exchange of IDLE_BYTE. -/
def fetchToken (s : State) : Instr :=
  match s.card with
  | .byte b :: _ => if b = s.cfg.tokenStart then .tokenStart else .idleByte
  | .timeout :: _ => .idleByte
  | [] => .idleByte

/-- The row of a data-response byte; "not a data response" only completes an exchange of IDLE_BYTE. -/
def fetchDresp (s : State) : Instr :=
  match s.card with
  | .byte b :: _ =>
    match decodeDresp s.cfg b with
    | .ok i => i
    | .error _ => .idleByte
  | .timeout :: _ => .idleByte
  | [] => .idleByte

/-- The row the block executes next, if its next event is one, with the state after fetching it (a START taken from the host). -/
def fetch (s : State) : Option (Instr × State) :=
  match s.pos with
  | .idle =>
    match s.host with
    | .start op sector count buffer :: rest => some (decodeOp op sector count, presented op count buffer { s with host := rest })
    | .poke _ _ :: _ => none
    | .reset :: _ => none
    | [] => none
  | .issue c => some (c.toInstr s.arg, s)
  | .poll _ => some (fetchPoll s, s)
  | .tokenWait => some (fetchToken s, s)
  | .dresp => some (fetchDresp s, s)
  | .leadToken => some (.tokenStart, s)
  | .powerOn _ | .trail0 _ | .trail1 _ _ | .trail2 _ _ _ | .trail3 _ _ _ _ | .data | .crc _ | .leadDummy | .stub _
  | .busyWait | .release _ => some (.idleByte, s)
  | .clkSlow | .csForce | .frame _ _ | .sendData | .deselect _ | .abort | .clkFast | .done => none

/-- The state after the scheduler's turn: the mover of this step used up. An exhausted schedule leaves every move to the block. -/
def scheduled (s : State) : State := { s with sched := s.sched.tail }

/-- This step is the tick agent's (00 R11, 60 R244). -/
def tickMoves (s : State) : Bool := s.sched.head? == some .tick

/-! ## Placing a word of the table (log 7) -/

/-- A phase in which a command is called. -/
def homePhase : Cmd → Phase
  | .cmd0 => .initReset
  | .cmd8 => .initVoltageCheck
  | .cmd55 => .initSdv2Wait
  | .acmd41Hcs => .initSdv2Wait
  | .acmd41Legacy => .initLegacyWait
  | .cmd58 => .initOcrRead
  | .cmd1 => .initLegacyWait
  | .cmd16 => .initForceBlockLength
  | .cmd17 => .rdCommand
  | .cmd24 => .wrCommand
  | .cmd9 => .qscCommand

/-- The operation in which a command is called. -/
def homeOp : Cmd → Op
  | .cmd17 => .read
  | .cmd24 => .write
  | .cmd9 => .qcount
  | .cmd0 | .cmd8 | .cmd55 | .acmd41Hcs | .acmd41Legacy | .cmd58 | .cmd1 | .cmd16 => .init

/-- The sequencer about to send command `c` with argument `a`. -/
def placeCommand (c : Cmd) (a : Word) (s : State) : State :=
  { s with op := homeOp c, busy := true, phase := homePhase c, cs := .deasserted, arg := a, pos := .issue c, sched := [] }

/-- The host about to make a START with operation code `op`, operands of zero bits and the buffer of no block, the block idle. -/
def placeStart (op : Op) (s : State) : State :=
  { s with busy := false, phase := .idle, cs := .deasserted, pos := .idle, host := .start op.code 0 0 [] :: s.host, sched := [] }

/-- The sequencer at position `p` of phase `ph` of operation `o`, inside a span, the transport about to answer `b`. -/
def placeByte (o : Op) (ph : Phase) (p : Pos) (b : Byte) (s : State) : State :=
  { s with
    op := o, busy := true, phase := ph, cs := .asserted, pos := p, card := .byte b :: s.card, sched := [] }

/-- The state in which the very next step executes `i`. -/
def placeInstr (i : Instr) (s : State) : State :=
  match i with
  | .cmd0 => placeCommand .cmd0 (Cmd.cmd0.argument s.cfg 0) s
  | .cmd8 => placeCommand .cmd8 (Cmd.cmd8.argument s.cfg 0) s
  | .cmd55 => placeCommand .cmd55 (Cmd.cmd55.argument s.cfg 0) s
  | .acmd41Hcs => placeCommand .acmd41Hcs (Cmd.acmd41Hcs.argument s.cfg 0) s
  | .acmd41Legacy => placeCommand .acmd41Legacy (Cmd.acmd41Legacy.argument s.cfg 0) s
  | .cmd58 => placeCommand .cmd58 (Cmd.cmd58.argument s.cfg 0) s
  | .cmd1 => placeCommand .cmd1 (Cmd.cmd1.argument s.cfg 0) s
  | .cmd16 => placeCommand .cmd16 (Cmd.cmd16.argument s.cfg 0) s
  | .cmd17 a => placeCommand .cmd17 a s
  | .cmd24 a => placeCommand .cmd24 a s
  | .cmd9 => placeCommand .cmd9 (Cmd.cmd9.argument s.cfg 0) s
  | .init _ _ => placeStart .init s
  | .read _ _ => placeStart .read s
  | .write _ _ => placeStart .write s
  | .getver _ _ => placeStart .getver s
  | .qcount _ _ => placeStart .qcount s
  | .qsize _ _ => placeStart .qsize s
  | .reserved6 _ _ => placeStart .reserved6 s
  | .reserved7 _ _ => placeStart .reserved7 s
  | .tokenStart => placeByte .read .rdTokenWait .tokenWait s.cfg.tokenStart s
  | .idleByte => placeByte .read .rdTokenWait .tokenWait 0xFF s
  | .r1NotReady b => { placeByte .init .initReset (.poll .cmd0) b s with pollCnt := s.cfg.r1PollBudget }
  | .r1Valid b => { placeByte .init .initReset (.poll .cmd0) b s with pollCnt := s.cfg.r1PollBudget }
  | .drespAccept b => placeByte .write .wrDataResp .dresp b s
  | .drespCrcErr b => placeByte .write .wrDataResp .dresp b s
  | .drespWriteErr b => placeByte .write .wrDataResp .dresp b s

/-- A word of the table stored where the next step finds it; a word that decodes to nothing stores nothing. -/
def placeTableWord (s : State) (nbits w : Nat) : State :=
  match decodeTableWord nbits w with
  | some i => placeInstr i s
  | none => s

end Sys2Proof.Machine
end

