-- ==== Sys2Proof/Machine/Step.lean ====
section
/-! DEFINITION. One step (spec 00 R10, R11): the tick agent's, or the block's with the host's and the transport's part in it. -/

namespace Sys2Proof.Machine

/-- The block's step: the row it fetches, executed; or the event that is no row of the table. -/
def blockStep (s : State) : Result :=
  match fetch s with
  | some (i, t) => exec i t
  | none => sequence s

/-- One step. "A model refuses a configuration that breaks a constraint" (00 R7). -/
def step (s : State) : Host.Outcome State Fault Refusal :=
  if s.cfg.ok then
    if tickMoves s then .next (tick (scheduled s)) else blockStep (scheduled s)
  else .refused .badConfiguration

/-- A word of the opcode table placed where the next step executes it (log 7). -/
def State.withFetchWord (s : State) (nbits w : Nat) : State := placeTableWord s nbits w

end Sys2Proof.Machine
end

