-- ==== Sys2Proof/Machine/Ports.lean ====
section
/-! DEFINITION. The ports of the block as views of its state, and the textual notation of traces (spec 10 R42, R43, 30 R86). -/

namespace Sys2Proof.Machine

/-- What the host may read while the block is idle (10 R42, R33): the outcome, the registers a failure leaves behind (60 R230), and the
host buffer (20 R66, 70 R271). -/
structure HostRead where
  lastStatus : BitVec 2
  fail : BitVec 4
  blk : Word
  r1 : Byte
  trailing : Word
  dresp : Byte
  hostbuf : Memory
  deriving DecidableEq, Repr

/-- What the host port shows (10 R42): the signals `busy`, `status`, `fail` and `result`, and the read access while idle, `none` where the
host has none. The event `done` is `Event.done`. -/
structure HostPort where
  busy : Bool
  status : BitVec 2
  fail : BitVec 4
  result : Word
  read : Option HostRead
  deriving DecidableEq, Repr

/-- The read access of the host: only "while idle" (10 R42), which is where the host makes its moves, `DONE` emitted (20 R66: not
"between `START` and `DONE`"). -/
def hostRead (s : State) : Option HostRead :=
  if s.pos = .idle then
    some {
      lastStatus := s.lastStatus.code, fail := s.fail.code, blk := s.blk, r1 := s.r1, trailing := s.trailing,
      dresp := s.dresp, hostbuf := s.hostbuf }
  else none

/-- The host port of a state. -/
def hostPort (s : State) : HostPort :=
  { busy := s.busy, status := s.lastStatus.code, fail := s.fail.code, result := s.result, read := hostRead s }

/-- The byte the block presents on the bus port (10 R43, 40 R100), where its next event is an exchange. -/
def busOut (s : State) : Option Byte :=
  match s.pos with
  | .powerOn _ | .poll _ | .trail0 _ | .trail1 _ _ | .trail2 _ _ _ | .trail3 _ _ _ _ | .tokenWait | .data | .crc _
  | .leadDummy | .stub _ | .dresp | .busyWait | .release _ => some s.cfg.idleByte
  | .frame _ k => some s.frame[k]
  | .leadToken => some s.cfg.tokenStart
  | .sendData => some (s.hostbuf.read (bufOffset s.cfg s.blk s.idx))
  | .idle | .clkSlow | .csForce | .issue _ | .deselect _ | .abort | .clkFast | .done => none

/-! ## Notation (30 R86) -/

/-- One hexadecimal digit. -/
def hexDigit (n : Nat) : String :=
  ["0", "1", "2", "3", "4", "5", "6", "7", "8", "9", "A", "B", "C", "D", "E", "F"].getD n "?"

/-- "Two hexadecimal digits". -/
def hexByte (b : Byte) : String := hexDigit (b.toNat / 16) ++ hexDigit (b.toNat % 16)

/-- A 32-bit number, eight hexadecimal digits after `0x`. -/
def hexWord (w : Word) : String :=
  "0x" ++ hexByte (wordByte w 0) ++ hexByte (wordByte w 1) ++ hexByte (wordByte w 2) ++ hexByte (wordByte w 3)

/-- The spec's name of an operation (30 R82). -/
def Op.text : Op → String
  | .init => "INIT" | .read => "READ" | .write => "WRITE" | .getver => "GETVER" | .qcount => "QCOUNT" | .qsize => "QSIZE"
  | .reserved6 => "RESERVED6" | .reserved7 => "RESERVED7"

/-- The spec's name of a status (60 R232). -/
def Status.text : Status → String
  | .ok => "OK" | .notInitialized => "NotInitialized" | .ioError => "IOError" | .parameterError => "ParameterError"

/-- The spec's name of a failure (60 R230). -/
def Fail.text : Fail → String
  | .none => "None" | .busTimeout => "BusTimeout" | .noInit => "NoInit" | .timeout => "Timeout"
  | .commandRejected => "CommandRejected" | .dataTokenError => "DataTokenError" | .writeRejected => "WriteRejected"
  | .ocrReadFailed => "OcrReadFailed" | .busyTimeout => "BusyTimeout" | .csdUnsupported => "CsdUnsupported"

/-- A number in hexadecimal without leading zeros, as the traces of spec 95 write a sector and an argument. -/
def hexShort (w : Word) : String :=
  match (((List.range 8).reverse.map fun k => hexDigit (w.toNat / 16 ^ k % 16)).dropWhile (· == "0")) with
  | [] => "0x0"
  | d :: ds => "0x" ++ String.join (d :: ds)

/-- The operation a code of the host port selects (30 R82). -/
def Op.ofCode (code : BitVec 3) : Op :=
  match code with
  | 0 => .init
  | 1 => .read
  | 2 => .write
  | 3 => .getver
  | 4 => .qcount
  | 5 => .qsize
  | 6 => .reserved6
  | 7 => .reserved7

/-- A line of a host program (30 R86). -/
def hostLine (o : Op) (sector count : Word) : String :=
  match o with
  | .read | .write => o.text ++ " " ++ hexWord sector ++ ", " ++ toString count.toNat
  | .init | .getver | .qcount | .qsize | .reserved6 | .reserved7 => o.text

/-- The lines of a host program, one operation each (30 R86); the host's other moves are no lines of it. -/
def hostProgramText (moves : List HostMove) : List String :=
  moves.filterMap fun m =>
    match m with
    | .start op sector count _ => some (hostLine (Op.ofCode op) sector count)
    | .poke _ _ => none
    | .reset => none

/-- `START(op, sector, count)` (00 R10), the operands shown where the operation uses them, as spec 95 writes it. -/
def startText (o : Op) (sector count : Word) : String :=
  match o with
  | .read | .write => "START(" ++ o.text ++ "," ++ hexShort sector ++ "," ++ toString count.toNat ++ ")"
  | .init | .getver | .qcount | .qsize | .reserved6 | .reserved7 => "START(" ++ o.text ++ ")"

/-- An event in the spelling of 00 R10 and 30 R86. -/
def Event.text : Event → String
  | .start o s n _ => startText o s n
  | .clk .slow => "CLK(Slow)"
  | .clk .fast => "CLK(Fast)"
  | .cs .asserted => "CS(1)"
  | .cs .deasserted => "CS(0)"
  | .x o i => "X(" ++ hexByte o ++ "," ++ hexByte i ++ ")"
  | .xt o => "XT(" ++ hexByte o ++ ")"
  | .done st f => "DONE(" ++ st.text ++ "," ++ f.text ++ ")"
  | .tick => "TICK"

/-- The bus trace of a state, oldest event first, one text an event. -/
def traceText (s : State) : List String := s.trace.reverse.map Event.text

/-! ## Pseudo-operations of the notation (30 R86) -/

/-- The pseudo-operations "used in prose and vectors". -/
inductive Pseudo where
  | sendCommand (index : BitVec 6) (a : Word)
  | deselect
  | exchange (index : BitVec 6) (a : Word)
  | powerOn
  | frame (index : BitVec 6) (a : Word)
  deriving DecidableEq, Repr

/-- How a pseudo-operation is written, the index in decimal and the argument in hexadecimal as in the examples of spec 41. -/
def Pseudo.text : Pseudo → String
  | .sendCommand i a => "sendCommand(" ++ toString i.toNat ++ ", " ++ hexShort a ++ ")"
  | .deselect => "deselect()"
  | .exchange i a => "exchange(" ++ toString i.toNat ++ ", " ++ hexShort a ++ ")"
  | .powerOn => "powerOn()"
  | .frame i a => "FRAME(" ++ toString i.toNat ++ ", " ++ hexShort a ++ ")"

/-- The exchanges that send `out`, receiving `inp` in order. -/
def exchanges (out inp : List Byte) : List Event := List.zipWith Event.x out inp

/-- `FRAME(i, a)`: "the six `X` events that send `0x40|i`, the four bytes of `a` most significant first, and `crc_byte(i)`". -/
def frameEvents (c : Config) (i : BitVec 6) (a : Word) (inp : List Byte) : List Event := exchanges (frameOf c i a).toList inp

/-- `sendCommand(i, a)` (41 R120): `CS(1)`, the frame, and a poll read for every byte received after the frame's six. -/
def sendCommandEvents (c : Config) (i : BitVec 6) (a : Word) (inp : List Byte) : List Event :=
  .cs .asserted :: frameEvents c i a (inp.take 6) ++ (inp.drop 6).map (.x c.idleByte)

/-- `deselect()`: `cs <- Deasserted; tx(0xFF)`. -/
def deselectEvents (c : Config) (inp : List Byte) : List Event := .cs .deasserted :: exchanges [c.idleByte] inp

/-- The expansion of a pseudo-operation into events, oldest first, `inp` being the bytes received in it, all exchanges completing. -/
def Pseudo.events (c : Config) (inp : List Byte) : Pseudo → List Event
  | .sendCommand i a => sendCommandEvents c i a inp
  | .deselect => deselectEvents c inp
  | .exchange i a => sendCommandEvents c i a inp.dropLast ++ deselectEvents c (inp.drop (inp.length - 1))
  | .powerOn => exchanges (List.replicate c.powerOnBytes c.idleByte) inp
  | .frame i a => frameEvents c i a inp

end Sys2Proof.Machine
end

