-- ==== Sys2Proof/Safety.lean ====
section
/-! DEFINITION. What claims are stated in: the places of the sequencer, the invariant of the state (spec 10 R45, R38, 20 R52, R67), and the
order of events on the bus (spec 40 R108, 41 R126, R127, 70 R267, R274). -/

namespace Sys2Proof.Machine

/-! ## Places: which positions belong to which phase (10 R30) -/

/-- The phases in which a command is sent (42, 43 R172, R177, 44 R211). -/
def cmdPlace (c : Cmd) (p : Phase) : Bool :=
  match c with
  | .cmd0 => p == .initReset
  | .cmd8 => p == .initVoltageCheck
  | .cmd55 => p == .initSdv2Wait || p == .initLegacyProbe || p == .initLegacyWait
  | .acmd41Hcs => p == .initSdv2Wait
  | .acmd41Legacy => p == .initLegacyProbe || p == .initLegacyWait
  | .cmd58 => p == .initOcrRead
  | .cmd1 => p == .initLegacyWait
  | .cmd16 => p == .initForceBlockLength
  | .cmd17 => p == .rdCommand
  | .cmd24 => p == .wrCommand
  | .cmd9 => p == .qscCommand

/-- The phase in which a command's span ends without a failure of its own. -/
def spanEnd (c : Cmd) (p : Phase) : Bool :=
  match c with
  | .cmd17 => p == .rdCrc
  | .cmd24 => p == .wrBusyWait
  | .cmd9 => p == .qscCrc
  | .cmd0 | .cmd8 | .cmd55 | .acmd41Hcs | .acmd41Legacy | .cmd58 | .cmd1 | .cmd16 => cmdPlace c p

/-- The phases in which a failure is raised after a `deselect()` of the data phases (43 R172 to R181, 44 R211). -/
def raisePlace (f : Fail) (p : Phase) : Bool :=
  match f with
  | .commandRejected => p == .rdCommand || p == .wrCommand || p == .qscCommand
  | .dataTokenError => p == .rdTokenWait || p == .qscTokenWait
  | .writeRejected => p == .wrDataResp
  | .busyTimeout => p == .wrBusyWait
  | .none | .busTimeout | .noInit | .timeout | .ocrReadFailed | .csdUnsupported => false

/-- What may follow a release byte in a phase. -/
def afterPlace (a : After) (p : Phase) : Bool :=
  match a with
  | .done c => spanEnd c p
  | .raise f => raisePlace f p

/-- The two commands with trailing bytes (30 R73), in their phase. -/
def trailPlace (c : Cmd) (p : Phase) : Bool :=
  match c with
  | .cmd8 => p == .initVoltageCheck
  | .cmd58 => p == .initOcrRead
  | .cmd0 | .cmd55 | .acmd41Hcs | .acmd41Legacy | .cmd1 | .cmd16 | .cmd17 | .cmd24 | .cmd9 => false

/-- The position belongs to the phase. -/
def posPlace (q : Pos) (p : Phase) : Bool :=
  match q with
  | .idle => p == .idle
  | .done => p == .idle
  | .clkSlow => p == .initReset
  | .csForce => false
  | .powerOn _ => p == .initReset
  | .issue c => cmdPlace c p
  | .frame c _ => cmdPlace c p
  | .poll c => cmdPlace c p
  | .trail0 c => trailPlace c p
  | .trail1 c _ => trailPlace c p
  | .trail2 c _ _ => trailPlace c p
  | .trail3 c _ _ _ => trailPlace c p
  | .tokenWait => p == .rdTokenWait || p == .qscTokenWait
  | .data => p == .rdData || p == .qscData
  | .crc _ => p == .rdCrc || p == .qscCrc
  | .leadDummy => p == .wrLead
  | .leadToken => p == .wrLead
  | .sendData => p == .wrData
  | .stub _ => p == .wrCrc
  | .dresp => p == .wrDataResp
  | .busyWait => p == .wrBusyWait
  | .deselect a => afterPlace a p
  | .release a => afterPlace a p
  | .abort => p != .idle
  | .clkFast => p == .initSpeedUp

/-- The operation a phase belongs to; none while idle. -/
def Phase.op? : Phase → Option Op
  | .idle => none
  | .initReset | .initVoltageCheck | .initSdv2Wait | .initOcrRead | .initLegacyProbe | .initLegacyWait
  | .initForceBlockLength | .initSpeedUp => some .init
  | .rdCommand | .rdTokenWait | .rdData | .rdCrc => some .read
  | .wrCommand | .wrLead | .wrData | .wrCrc | .wrDataResp | .wrBusyWait => some .write
  | .qscCommand | .qscTokenWait | .qscData | .qscCrc => some .qcount

/-- The positions between `CS(1)` and `CS(0)` (40 R108). -/
def spanOpen : Pos → Bool
  | .frame _ _ | .poll _ | .trail0 _ | .trail1 _ _ | .trail2 _ _ _ | .trail3 _ _ _ _ | .tokenWait | .data | .crc _
  | .leadDummy | .leadToken | .sendData | .stub _ | .dresp | .busyWait | .deselect _ | .abort => true
  | .idle | .clkSlow | .csForce | .powerOn _ | .issue _ | .release _ | .clkFast | .done => false

/-- The positions after the busy-wait of a block of a WRITE, where `blk` counts it already (44 R206, log 13). -/
def blockCounted (q : Pos) : Bool := q == .deselect (.done .cmd24) || q == .release (.done .cmd24)

/-- A permissive policy is configured (42 R154). -/
def degradeConfigured (c : Config) : Bool := c.pVcheckMismatch == .degrade || c.pBlocklenFail == .degrade

/-! ## The invariant -/

/-- What holds in every state a run reaches: 10 R45 between operations, and what it rests on inside them. -/
structure Inv (s : State) : Prop where
  /-- 00 R7 -/
  config : s.cfg.ok = true
  /-- the host buffer is in canonical form -/
  buffer : Memory.wf s.hostbuf
  /-- 10 R30 -/
  place : posPlace s.pos s.phase = true
  /-- 10 R38: "`busy = 1` iff `phase != Idle`" -/
  busyIff : s.busy = true ↔ s.phase ≠ .idle
  /-- chip-select is asserted exactly inside a span (40 R108, 10 R45.1) -/
  select : s.cs = .asserted ↔ spanOpen s.pos = true
  /-- the operation in flight is the latched one (44 R200) -/
  operation : ∀ o, s.phase.op? = some o → s.op = o
  /-- 10 R29 and the admission of 44 R204, which the block arithmetic of 20 R67 rests on -/
  blocks : s.phase.op? = some .read ∨ s.phase.op? = some .write →
    s.blk ≤ s.count ∧ (blockCounted s.pos = false → s.blk < s.count) ∧ parametersOk s.version s.sector s.count = true
  /-- 44 R203 and 42 R140: a session while a block operation runs, none while Initialize runs -/
  session : (s.phase.op? = some .init → s.ready = false) ∧
    (s.phase.op? = some .read ∨ s.phase.op? = some .write ∨ s.phase.op? = some .qcount →
      s.ready = true ∧ s.version ≠ .unknown)
  /-- the byte index of a data phase is in range (10 R29, 43 R174, 44 R211) -/
  index : (s.pos = .data → s.phase = .rdData → s.idx.toNat < 512) ∧ (s.pos = .data → s.phase = .qscData → s.idx.toNat < 16) ∧
    (s.pos = .sendData → s.idx.toNat < 512)
  /-- 10 R45.3: "`ready = 1` implies `clk_tier = Fast`" -/
  readyFast : s.ready = true → s.clkTier = .fast
  /-- 10 R45.3 and 60 R238: without a session, idle, the tier is `Slow` and the version `Unknown` -/
  notReadyIdle : s.phase = .idle → s.ready = false → s.clkTier = .slow ∧ s.version = .unknown
  /-- 70 R276: inside Initialize, after its first event, the tier is `Slow` -/
  initSlow : s.phase.op? = some .init → s.pos ≠ .clkSlow → s.clkTier = .slow
  /-- the classification has been made where the block length is forced (42 R147, R149, R150, R151) -/
  classified : s.phase = .initForceBlockLength ∨ s.phase = .initSpeedUp → s.version ≠ .unknown
  /-- 42 R145, R151: `degraded` is set by a permissive policy only -/
  degradedByPolicy : s.degraded = true → degradeConfigured s.cfg = true
  /-- 42 R154, 10 R45.4: "With both policies at their default `Fail`, `ready = 1` implies `version != Unknown`" -/
  readyKnown : s.ready = true → s.version = .unknown → degradeConfigured s.cfg = true
  /-- the R1 poll has reads left (41 R122) -/
  pollLeft : ∀ c, s.pos = .poll c → s.pollCnt ≠ 0

/-! ## The order of events on the bus -/

/-- Where the bus stands after a trace. -/
inductive Wire where
  /-- before the first `CS(1)` of an operation, or between operations: only idle bytes may be exchanged (power-on) -/
  | rest
  /-- inside a span -/
  | selected
  /-- after the `CS(0)` of a `deselect()`: the release byte is due -/
  | closing
  /-- after the release byte: no exchange before the next `CS(1)` (70 R267) -/
  | free
  /-- an exchange timed out inside a span: `CS(0)` is due (60 R237) -/
  | broken
  /-- after a BusTimeout: only `DONE` may follow -/
  | aborted
  deriving DecidableEq, Repr

/-- The event that may follow, and where the bus stands then; `none` where the rules forbid the event. `TICK` may fall anywhere. -/
def wireStep (idle : Byte) (w : Wire) (e : Event) : Option Wire :=
  match e with
  | .tick => some w
  | .start _ _ _ _ => if w = .rest then some .rest else none
  | .clk t => if w = .rest ∨ (w = .free ∧ t = .fast) then some w else none
  | .cs .asserted => if w = .rest ∨ w = .free then some .selected else none
  | .cs .deasserted => if w = .selected then some .closing else if w = .broken then some .aborted else none
  | .x o _ =>
    if w = .selected then some .selected
    else if o ≠ idle then none
    else if w = .rest then some .rest
    else if w = .closing then some .free
    else none
  | .xt o =>
    if w = .selected then some .broken
    else if o = idle ∧ (w = .rest ∨ w = .closing) then some .aborted
    else none
  | .done _ _ => if w = .rest ∨ w = .free ∨ w = .aborted then some .rest else none

/-- Where the bus stands after a whole trace (newest event first), if every event was allowed. -/
def wireOf (idle : Byte) : List Event → Option Wire
  | [] => some .rest
  | e :: older => (wireOf idle older).bind fun w => wireStep idle w e

/-- The places of the bus a position of the sequencer agrees with. -/
def wirePlace (q : Pos) (w : Wire) : Bool :=
  match q with
  | .idle | .clkSlow | .csForce | .powerOn _ => w == .rest
  | .issue _ => w == .rest || w == .free
  | .frame _ _ | .poll _ | .trail0 _ | .trail1 _ _ | .trail2 _ _ _ | .trail3 _ _ _ _ | .tokenWait | .data | .crc _
  | .leadDummy | .leadToken | .sendData | .stub _ | .dresp | .busyWait | .deselect _ => w == .selected
  | .release _ => w == .closing
  | .abort => w == .broken
  | .clkFast => w == .free
  | .done => w == .rest || w == .free || w == .aborted

/-- Every event so far was allowed, and the sequencer stands where the trace says. -/
def WireInv (s : State) : Prop := ∃ w, wireOf s.cfg.idleByte s.trace = some w ∧ wirePlace s.pos w = true

/-! ## Runs and environments -/

/-- `k` steps of the machine (Host/Core.lean). -/
def run (k : Nat) (s : State) : Result := Host.Core.run Sys2Proof.core k s

/-- The next `k` steps are the block's: no tick falls among them (the schedule is a free input, 00 R11). -/
abbrev noTick (k : Nat) (s : State) : Prop := ∀ m ∈ s.sched.take k, m = Mover.block

/-- The transport answers the bytes `bs` next, then `rest` (40 R100). -/
abbrev answering (bs : List Byte) (rest : List Answer) (s : State) : Prop := s.card = bs.map .byte ++ rest

/-- The events of receiving `bs` in order while sending `o` each time, newest first. -/
def receiving (o : Byte) (bs : List Byte) : List Event := (bs.map (Event.x o)).reverse

/-- The positions whose next event is an exchange that sends the idle byte (40 R102, R106, 41 R126, 43 R178, R179). -/
def sendsIdle : Pos → Bool
  | .powerOn _ | .poll _ | .trail0 _ | .trail1 _ _ | .trail2 _ _ _ | .trail3 _ _ _ _ | .tokenWait | .data | .crc _
  | .leadDummy | .stub _ | .dresp | .busyWait | .release _ => true
  | .idle | .clkSlow | .csForce | .issue _ | .frame _ _ | .leadToken | .sendData | .deselect _ | .abort | .clkFast
  | .done => false

/-! ## States that claims name -/

/-- Every byte of the host buffer reads in `t` as in `s`. -/
def sameBytes (s t : State) : Prop := ∀ off, t.hostbuf.read off = s.hostbuf.read off

/-- `s` after an exchange `X(o, i)`, `rest` being the transport's answers after it. -/
def afterX (o i : Byte) (rest : List Answer) (s : State) : State := { s with card := rest, trace := .x o i :: s.trace }

/-- `s` after `START(o, sector, count)` with its operands latched (44 R200). -/
def started (o : Op) (sector count : Word) (s : State) : State :=
  { s with op := o, sector := sector, count := count, busy := true, trace := .start o sector count (startData o s) :: s.trace }

/-- `s` about to send command `c` with argument `a`. -/
def calling (c : Cmd) (a : Word) (s : State) : State := { s with arg := a, pos := .issue c }

/-- `s` with its operation ended, `DONE(st, f)` being the next event (60 R235). -/
def ended (st : Status) (f : Fail) (s : State) : State :=
  { s with lastStatus := st, fail := f, phase := .idle, busy := false, pos := .done }

/-- `s` after its `DONE` (60 R235): the event alone, and the block idle for the host. -/
def reported (s : State) : State :=
  { s with pos := .idle, sched := s.sched.drop 1, trace := .done s.lastStatus s.fail :: s.trace }

/-- `s` with its Initialize ended by a failure (60 R238). -/
def initFailed (st : Status) (f : Fail) (s : State) : State := ended st f { s with ready := false, version := .unknown }

/-- The registers that an operation may write (10 R46): `s` with exactly those taken from `t`, and with them the operands of
START, `phase`, `busy`, `fail`, `last_status` and the model's own fields. -/
def writtenBy (o : Op) (s t : State) : State :=
  let u := { s with
    op := t.op, sector := t.sector, count := t.count, busy := t.busy, phase := t.phase, lastStatus := t.lastStatus,
    fail := t.fail, pos := t.pos, r55 := t.r55, host := t.host, card := t.card, sched := t.sched, trace := t.trace }
  match o with
  | .init => { u with
      version := t.version, clkTier := t.clkTier, ready := t.ready, cs := t.cs, degraded := t.degraded, path := t.path,
      arg := t.arg, frame := t.frame, r1 := t.r1, trailing := t.trailing, pollCnt := t.pollCnt, cnt := t.cnt }
  | .read => { u with
      cs := t.cs, blk := t.blk, idx := t.idx, arg := t.arg, frame := t.frame, r1 := t.r1, pollCnt := t.pollCnt,
      cnt := t.cnt, hostbuf := t.hostbuf }
  | .write => { u with
      cs := t.cs, blk := t.blk, idx := t.idx, arg := t.arg, frame := t.frame, r1 := t.r1, dresp := t.dresp,
      pollCnt := t.pollCnt, cnt := t.cnt }
  | .getver => { u with result := t.result }
  | .qsize => { u with result := t.result }
  | .qcount => { u with
      cs := t.cs, result := t.result, idx := t.idx, arg := t.arg, frame := t.frame, r1 := t.r1, csd := t.csd,
      pollCnt := t.pollCnt, cnt := t.cnt }
  | .reserved6 => u
  | .reserved7 => u

/-! ## The CRC of the fixed frames (93 G3) -/

/-- One bit of the CRC-7 with generator x^7 + x^3 + 1: `c` is the register, `b` the bit that enters. -/
def crc7Bit (c : BitVec 7) (b : Bool) : BitVec 7 := if b != c.getLsbD 6 then (c <<< 1) ^^^ 0x09 else c <<< 1

/-- One byte, most significant bit first. -/
def crc7Byte (c : BitVec 7) (b : Byte) : BitVec 7 :=
  [7, 6, 5, 4, 3, 2, 1, 0].foldl (fun r k => crc7Bit r (b.getLsbD k)) c

/-- `(crc7 << 1) | 1` of a frame's first five bytes. The block never computes it (30 R71). -/
def crc7Field (bytes : List Byte) : Byte := ((bytes.foldl crc7Byte 0).setWidth 8 <<< 1) ||| 1

end Sys2Proof.Machine
end

