-- ==== Sys2Proof/Certificates/Slice0/Obligations.lean ====
section
/-! DEFINITION. The statements about the model, for the provers; OBLIGATIONS.json lists them. -/

open Sys2Proof Sys2Proof.Machine

/-! ## Encodings -/

/-- Words of every row of spec/opcode_table.json, written out from its `encoding` and `match`. A word of 48 bits is a frame and a word of 3
bits an `op`, with operands 0 (the model's choice, log 7); a bare byte is told no port and is read on the one with the most fixed bits
(the model's choice, log 8), so the R1 and data-response rows are read on their own ports here. -/
def Obligations.TableWordsDecode : Prop :=
  decodeTableWord 48 0x400000000095 = some .cmd0 ∧ decodeTableWord 48 0x48000001AA87 = some .cmd8
  ∧ decodeTableWord 48 0x770000000001 = some .cmd55 ∧ decodeTableWord 48 0x694000000001 = some .acmd41Hcs
  ∧ decodeTableWord 48 0x690000000001 = some .acmd41Legacy ∧ decodeTableWord 48 0x7A00000000FD = some .cmd58
  ∧ decodeTableWord 48 0x410000000001 = some .cmd1 ∧ decodeTableWord 48 0x500000020001 = some .cmd16
  ∧ decodeTableWord 48 0x51FFFFFE0001 = some (.cmd17 0xFFFFFE00) ∧ decodeTableWord 48 0x5800ABCDEF01 = some (.cmd24 0x00ABCDEF)
  ∧ decodeTableWord 48 0x490000000001 = some .cmd9
  ∧ decodeTableWord 3 0b000 = some (.init 0 0) ∧ decodeTableWord 3 0b001 = some (.read 0 0)
  ∧ decodeTableWord 3 0b010 = some (.write 0 0) ∧ decodeTableWord 3 0b011 = some (.getver 0 0)
  ∧ decodeTableWord 3 0b100 = some (.qcount 0 0) ∧ decodeTableWord 3 0b101 = some (.qsize 0 0)
  ∧ decodeTableWord 3 0b110 = some (.reserved6 0 0) ∧ decodeTableWord 3 0b111 = some (.reserved7 0 0)
  ∧ decodeTableWord 8 0b11111110 = some .tokenStart ∧ decodeTableWord 8 0b11111111 = some .idleByte
  ∧ decodeR1 0b10000000 = .r1NotReady 0b10000000 ∧ decodeR1 0b01111111 = .r1Valid 0b01111111
  ∧ decodeDresp Config.default 0b11100101 = .ok (.drespAccept 0b11100101)
  ∧ decodeDresp Config.default 0b00001011 = .ok (.drespCrcErr 0b00001011)
  ∧ decodeDresp Config.default 0b10101101 = .ok (.drespWriteErr 0b10101101)

/-- Decoding an encoded well-formed instruction, whatever bytes follow it, gives it back with those bytes left: every row, every
operand value, every configuration under which an encoding determines its row. The byte layout of a host word is the model's choice
(log 18). -/
def Obligations.DecodeOfEncode : Prop :=
  ∀ (c : Config) (i : Instr) (rest : List Byte), c.ok = true → c.decodable = true → i.wf c = true →
    decode c i.port (encode c i ++ rest) = .ok (i, rest)

/-- Each word has one meaning: whatever a port decodes is a well-formed instruction of that port, and its encoding is the very
bytes decoded. The byte layout of a host word is the model's choice (log 18). -/
def Obligations.EncodeOfDecode : Prop :=
  ∀ (c : Config) (p : Port) (bytes rest : List Byte) (i : Instr), decode c p bytes = .ok (i, rest) →
    i.port = p ∧ i.wf c = true ∧ bytes = encode c i ++ rest

/-- What no row of the table is, is refused under its own name: a frame without start bits 01, a command index other than the ten, an
argument that no command of its index carries, a CRC byte that is not its index's, an op byte above 7, a byte of the token wait that is
neither token nor idle, a data response of no class. That `op` stands in a whole byte is the model's choice (log 18). -/
def Obligations.ReservedEncodingsRejected : Prop :=
  ∀ (c : Config) (b0 b1 b2 b3 b4 b5 : Byte) (rest : List Byte), c.ok = true →
    (b0.extractLsb' 6 2 ≠ 1 → decode c .frame (b0 :: b1 :: b2 :: b3 :: b4 :: b5 :: rest) = .error .badStartBits) ∧
    (b0.extractLsb' 6 2 = 1 → b0.extractLsb' 0 6 ∉ c.indices →
      decode c .frame (b0 :: b1 :: b2 :: b3 :: b4 :: b5 :: rest) = .error .unknownIndex) ∧
    (7 < b0.toNat → ∀ ops : List Byte, ops.length = 8 → decode c .host (b0 :: ops ++ rest) = .error .badOp) ∧
    (b0 ≠ c.tokenStart → b0 ≠ c.idleByte → decode c .token (b0 :: rest) = .error .notAToken) ∧
    (b0 &&& c.drMask ∉ [c.drAccept, c.drCrcErr, c.drWriteErr] → decode c .dresp (b0 :: rest) = .error .notADataResponse) ∧
    (c.decodable = true → ∀ (cmd : Cmd) (a : Word) (crc : Byte),
      let word := [0x40 ||| (cmd.index c).setWidth 8, a.extractLsb' 24 8, a.extractLsb' 16 8, a.extractLsb' 8 8,
        a.extractLsb' 0 8, crc] ++ rest
      ((∀ d : Cmd, d.index c = cmd.index c → a ≠ d.argument c a) → decode c .frame word = .error .badArgument) ∧
      (a = cmd.argument c a → crc ≠ crcByte c (cmd.index c) → decode c .frame word = .error .badCrc))

/-- The frame of any index and argument, field by field, with the two fixed bits of its first byte. The CRC byte depends on the index
alone: the fixed byte for the reset, voltage-check and OCR-read commands, the placeholder for every other index; and the three
defaults are the CRC-7 fields of the frames the block sends with them. -/
def Obligations.FrameFieldsAndCrc : Prop :=
  (∀ (c : Config) (index : BitVec 6) (a : Word), c.ok = true →
    (frameOf c index a)[0].getLsbD 7 = false ∧ (frameOf c index a)[0].getLsbD 6 = true
    ∧ (frameOf c index a)[0].extractLsb' 0 6 = index
    ∧ (frameOf c index a)[1] = a.extractLsb' 24 8 ∧ (frameOf c index a)[2] = a.extractLsb' 16 8
    ∧ (frameOf c index a)[3] = a.extractLsb' 8 8 ∧ (frameOf c index a)[4] = a.extractLsb' 0 8
    ∧ (frameOf c index a)[5] = crcByte c index)
  ∧ (∀ c : Config, c.decodable = true →
    crcByte c c.idxReset = c.crcReset ∧ crcByte c c.idxVcheck = c.crcVcheck ∧ crcByte c c.idxOcr = c.crcOcr
    ∧ ∀ index, index ∉ [c.idxReset, c.idxVcheck, c.idxOcr] → crcByte c index = c.crcPlaceholder)
  ∧ ∀ i ∈ [Instr.cmd0, Instr.cmd8, Instr.cmd58],
      (encode Config.default i)[5]? = some (crc7Field ((encode Config.default i).take 5))

/-! ## A command on the bus -/

/-- The eleven command rows (CMD0, CMD8, CMD55, ACMD41_HCS, ACMD41_LEGACY, CMD58, CMD1, CMD16, CMD17, CMD24, CMD9), executed where
the sequencer calls the command: one event CS(1), `arg` and the frame latched, and nothing else changed but the position. -/
def Obligations.CommandRowsLatchTheFrame : Prop :=
  ∀ (c : Cmd) (a : Word) (s : State), s.cfg.ok = true → s.pos = .issue c →
    ∃ t, exec (c.toInstr a) s = .next t ∧ t.cs = .asserted ∧ t.arg = c.argument s.cfg a
      ∧ t.frame = #v[0x40 ||| (c.index s.cfg).setWidth 8, t.arg.extractLsb' 24 8, t.arg.extractLsb' 16 8,
          t.arg.extractLsb' 8 8, t.arg.extractLsb' 0 8, crcByte s.cfg (c.index s.cfg)]
      ∧ t.trace = .cs .asserted :: s.trace ∧ sameBytes s t
      ∧ t = { s with cs := t.cs, arg := t.arg, frame := t.frame, trace := t.trace, pos := .frame c 0 }

/-- From the call of a command, with the transport answering six bytes: the next seven events are CS(1) and the six frame bytes in
order, nothing between; then the poll begins with its full budget. The six received bytes leave no trace in any register. And as single
steps, between any two of which ticks may fall (`TickCountsDown`): frame byte `k` is sent from the latched frame, and nothing changes but
the position, or after the sixth the poll's budget. -/
def Obligations.CommandSendsItsFrame : Prop :=
  (∀ (c : Cmd) (s : State) (i0 i1 i2 i3 i4 i5 : Byte) (rest : List Answer), s.cfg.ok = true → noTick 7 s → s.pos = .issue c →
     s.arg = c.argument s.cfg s.arg → answering [i0, i1, i2, i3, i4, i5] rest s →
     run 7 s = .next { s with
       cs := .asserted
       frame := #v[0x40 ||| (c.index s.cfg).setWidth 8, s.arg.extractLsb' 24 8, s.arg.extractLsb' 16 8,
         s.arg.extractLsb' 8 8, s.arg.extractLsb' 0 8, crcByte s.cfg (c.index s.cfg)]
       pollCnt := s.cfg.r1PollBudget
       pos := .poll c
       card := rest
       sched := s.sched.drop 7
       trace := [.x (crcByte s.cfg (c.index s.cfg)) i5, .x (s.arg.extractLsb' 0 8) i4, .x (s.arg.extractLsb' 8 8) i3,
         .x (s.arg.extractLsb' 16 8) i2, .x (s.arg.extractLsb' 24 8) i1, .x (0x40 ||| (c.index s.cfg).setWidth 8) i0,
         .cs .asserted] ++ s.trace })
  ∧ ∀ (c : Cmd) (k : Fin 6) (s : State) (i : Byte) (rest : List Answer), s.cfg.ok = true → noTick 1 s → s.pos = .frame c k →
    s.card = .byte i :: rest →
    let u := { afterX s.frame[k] i rest s with sched := s.sched.drop 1 }
    step s = .next (if h : k.val + 1 < 6 then { u with pos := .frame c ⟨k.val + 1, h⟩ }
      else { u with pollCnt := s.cfg.r1PollBudget, pos := .poll c })

/-- R1_NOT_READY: a byte with bit 7 set, received by the poll with reads left, is latched and counted and the poll goes on; as the last
read of the budget it ends the poll, and every command but the three with a data phase goes to `deselect()` and its caller, those
three to `deselect()` and `CommandRejected`. -/
def Obligations.NotReadyByteIsCounted : Prop :=
  ∀ (c : Cmd) (b : Byte) (rest : List Answer) (s : State), s.cfg.ok = true → s.pos = .poll c → b.getLsbD 7 = true →
    s.card = .byte b :: rest →
    (s.pollCnt ≠ 1 → exec (.r1NotReady b) s =
      .next { afterX s.cfg.idleByte b rest s with r1 := b, pollCnt := s.pollCnt - 1 }) ∧
    (s.pollCnt = 1 → exec (.r1NotReady b) s =
      .next { afterX s.cfg.idleByte b rest s with
        r1 := b, pollCnt := 0,
        pos := .deselect (if c = .cmd17 ∨ c = .cmd24 ∨ c = .cmd9 then .raise .commandRejected else .done c) })

/-- R1_VALID: a byte with bit 7 clear ends the poll, whatever the count. The voltage check and the OCR read go on to their trailing
bytes on success, the three data commands to their data phase; every other answer goes to `deselect()`. -/
def Obligations.ValidByteEndsThePoll : Prop :=
  ∀ (c : Cmd) (b : Byte) (rest : List Answer) (s : State), s.cfg.ok = true → s.pos = .poll c → b.getLsbD 7 = false →
    s.card = .byte b :: rest →
    let u := { afterX s.cfg.idleByte b rest s with r1 := b, pollCnt := s.pollCnt - 1 }
    exec (.r1Valid b) s = .next (
      match c with
      | .cmd8 => if b = 0x00 ∨ b = 0x01 then { u with pos := .trail0 .cmd8 } else { u with pos := .deselect (.done .cmd8) }
      | .cmd58 => if b = 0x00 then { u with pos := .trail0 .cmd58 } else { u with pos := .deselect (.done .cmd58) }
      | .cmd17 =>
        if b = 0x00 then { u with phase := .rdTokenWait, cnt := s.cfg.tToken, pos := .tokenWait }
        else { u with pos := .deselect (.raise .commandRejected) }
      | .cmd24 =>
        if b = 0x00 then { u with phase := .wrLead, pos := .leadDummy }
        else { u with pos := .deselect (.raise .commandRejected) }
      | .cmd9 =>
        if b = 0x00 then { u with phase := .qscTokenWait, cnt := s.cfg.tToken, pos := .tokenWait }
        else { u with pos := .deselect (.raise .commandRejected) }
      | .cmd0 => { u with pos := .deselect (.done .cmd0) }
      | .cmd55 => { u with pos := .deselect (.done .cmd55) }
      | .acmd41Hcs => { u with pos := .deselect (.done .acmd41Hcs) }
      | .acmd41Legacy => { u with pos := .deselect (.done .acmd41Legacy) }
      | .cmd1 => { u with pos := .deselect (.done .cmd1) }
      | .cmd16 => { u with pos := .deselect (.done .cmd16) })

/-- The poll as a whole. With the budget loaded and the transport answering `bs ++ [b]`, every byte of `bs` having bit 7 set, at most the
budget in all, and `b` having bit 7 clear or being the budget's last: the poll reads exactly these bytes, one exchange each, is
still polling after every one but the last, and leaves `b` in `r1`. A tick changes nothing the poll reads. -/
def Obligations.PollReadsUpToTheBudget : Prop :=
  (∀ (c : Cmd) (s : State) (bs : List Byte) (b : Byte) (rest : List Answer), s.cfg.ok = true →
    noTick (bs.length + 1) s → s.pos = .poll c → s.pollCnt = s.cfg.r1PollBudget → answering (bs ++ [b]) rest s →
    (∀ x ∈ bs, x.getLsbD 7 = true) → bs.length + 1 ≤ s.cfg.r1PollBudget.toNat →
    (b.getLsbD 7 = false ∨ bs.length + 1 = s.cfg.r1PollBudget.toNat) →
    (∀ k ≤ bs.length, ∃ t, run k s = .next t ∧ t.pos = .poll c ∧ t.cs = s.cs) ∧
    ∃ t, run (bs.length + 1) s = .next t ∧ (∀ d, t.pos ≠ .poll d) ∧ t.r1 = b ∧ t.card = rest ∧ t.cs = s.cs
      ∧ t.trace = receiving s.cfg.idleByte (bs ++ [b]) ++ s.trace
      ∧ t.pollCnt.toNat + (bs.length + 1) = s.cfg.r1PollBudget.toNat)
  ∧ ∀ (c : Cmd) (s t : State), s.pos = .poll c → tickMoves s = true → step s = .next t →
      t.pos = s.pos ∧ t.pollCnt = s.pollCnt ∧ t.r1 = s.r1 ∧ t.card = s.card

/-- Four trailing bytes, packed most significant first, then `deselect()`; chip-select is not touched and no byte is checked. And as single
steps, between any two of which ticks may fall (`TickCountsDown`): each byte is kept with those before it, and `trailing` is written with
the fourth (the model's reading, log 19). -/
def Obligations.TrailingBytesArePacked : Prop :=
  (∀ (c : Cmd) (s : State) (t0 t1 t2 t3 : Byte) (rest : List Answer), s.cfg.ok = true → noTick 4 s → s.pos = .trail0 c →
     answering [t0, t1, t2, t3] rest s →
     run 4 s = .next { s with
       trailing := t0 ++ t1 ++ t2 ++ t3, pos := .deselect (.done c), card := rest, sched := s.sched.drop 4,
       trace := receiving s.cfg.idleByte [t0, t1, t2, t3] ++ s.trace })
  ∧ ∀ (c : Cmd) (s : State) (t0 t1 t2 b : Byte) (rest : List Answer), s.cfg.ok = true → noTick 1 s → s.card = .byte b :: rest →
    let u := { afterX s.cfg.idleByte b rest s with sched := s.sched.drop 1 }
    (s.pos = .trail0 c → step s = .next { u with pos := .trail1 c b }) ∧
    (s.pos = .trail1 c t0 → step s = .next { u with pos := .trail2 c t0 b }) ∧
    (s.pos = .trail2 c t0 t1 → step s = .next { u with pos := .trail3 c t0 t1 b }) ∧
    (s.pos = .trail3 c t0 t1 t2 → step s = .next { u with trailing := t0 ++ t1 ++ t2 ++ b, pos := .deselect (.done c) })

/-- `deselect()`, whatever follows it: CS(0), then one idle byte whose received byte has no effect; if the release byte times out, the
operation ends with BusTimeout and no further chip-select event, chip-select being released already. And as a single step, after which ticks
may fall (`TickCountsDown`): CS(0), and the release byte is due. -/
def Obligations.DeselectThenReleaseByte : Prop :=
  (∀ (a : After) (s : State) (rest : List Answer), s.cfg.ok = true → noTick 2 s → s.pos = .deselect a →
     (∀ i : Byte, s.card = .byte i :: rest → ∃ t,
       (∀ j : Byte, run 2 { s with card := .byte j :: rest } =
         .next { t with trace := .x s.cfg.idleByte j :: .cs .deasserted :: s.trace })
       ∧ t.cs = .deasserted ∧ t.card = rest ∧ sameBytes s t) ∧
     (s.card = .timeout :: rest → ∃ t, run 2 s = .next t ∧ t.cs = .deasserted
       ∧ t.trace = .xt s.cfg.idleByte :: .cs .deasserted :: s.trace ∧ t.fail = .busTimeout ∧ t.lastStatus = .ioError
       ∧ t.busy = false ∧ t.phase = .idle ∧ t.pos = .done))
  ∧ ∀ (a : After) (s : State), s.cfg.ok = true → noTick 1 s → s.pos = .deselect a →
    step s = .next { s with
      cs := .deasserted, pos := .release a, sched := s.sched.drop 1, trace := .cs .deasserted :: s.trace }

/-! ## The bytes on the bus -/

/-- IDLE_BYTE completes at every position that sends the idle byte and for every received byte (for a data byte of a READ, at an offset
of the buffer): one event X(IDLE_BYTE, i), the answer used up, and the ports, the operands, the configuration, the frame and the
timers' own count unchanged; outside the data phase of a READ every byte of the buffer is unchanged. Without an answer of the
transport nothing changes: the block waits (the model's reading of an exchange still open, log 1). -/
def Obligations.IdleByteCompletesEverywhere : Prop :=
  ∀ s : State, s.cfg.ok = true → sendsIdle s.pos = true →
    (s.pos = .data → s.phase ≠ .qscData → s.blk < s.count ∧ s.idx.toNat < 512) →
    (∀ i rest, s.card = .byte i :: rest →
      ∃ t, exec .idleByte s = .next t ∧ t.trace = .x s.cfg.idleByte i :: s.trace ∧ t.card = rest
        ∧ t.cs = s.cs ∧ t.clkTier = s.clkTier ∧ t.op = s.op ∧ t.sector = s.sector ∧ t.count = s.count ∧ t.cfg = s.cfg
        ∧ t.frame = s.frame ∧ t.ms = s.ms ∧ t.host = s.host ∧ t.sched = s.sched
        ∧ (s.pos ≠ .data ∨ s.phase = .qscData → sameBytes s t)) ∧
    (s.card = [] → exec .idleByte s = .next s)

/-- A byte of a READ's data phase goes to offset `blk*512 + idx` of the host buffer in the step that receives it, whatever its value; every
other byte and register is unchanged but the index, which moves to the next byte, or the phase after the last. That the index keeps 511
after the last byte is the model's reading (log 13). -/
def Obligations.DataByteIsStored : Prop :=
  ∀ (s : State) (b : Byte) (rest : List Answer), s.cfg.ok = true → Memory.wf s.hostbuf → s.pos = .data →
    s.phase = .rdData → s.blk < s.count → s.idx.toNat < 512 → s.card = .byte b :: rest →
    ∃ t, exec .idleByte s = .next t
      ∧ (∀ off, t.hostbuf.read off = if off = s.blk.toNat * 512 + s.idx.toNat then b else s.hostbuf.read off)
      ∧ { t with hostbuf := s.hostbuf } =
          if s.idx.toNat < 511 then { afterX s.cfg.idleByte b rest s with idx := s.idx + 1 }
          else { afterX s.cfg.idleByte b rest s with phase := .rdCrc, pos := .crc false }

/-- A byte of the CSD goes to `csd[idx]`, and nothing else changes but the index, or the phase after the sixteenth. That the index keeps 15
after the sixteenth byte is the model's reading (log 13). -/
def Obligations.CsdByteIsStored : Prop :=
  ∀ (s : State) (b : Byte) (rest : List Answer), s.cfg.ok = true → s.pos = .data → s.phase = .qscData → s.idx.toNat < 16 →
    s.card = .byte b :: rest →
    ∃ t, exec .idleByte s = .next t
      ∧ (∀ k : Fin 16, t.csd[k] = if k.val = s.idx.toNat then b else s.csd[k])
      ∧ { t with csd := s.csd } =
          if s.idx.toNat < 15 then { afterX s.cfg.idleByte b rest s with idx := s.idx + 1 }
          else { afterX s.cfg.idleByte b rest s with phase := .qscCrc, pos := .crc false }

/-- The two CRC bytes after a data packet are received and change no register, whatever they are; `deselect()` follows. And as single steps,
between which ticks may fall (`TickCountsDown`). -/
def Obligations.CrcBytesAreDiscarded : Prop :=
  (∀ (s : State) (c0 c1 : Byte) (rest : List Answer), s.cfg.ok = true → noTick 2 s → s.pos = .crc false →
     s.phase = .rdCrc ∨ s.phase = .qscCrc → answering [c0, c1] rest s →
     run 2 s = .next { s with
       pos := .deselect (.done (if s.phase = .qscCrc then .cmd9 else .cmd17)), card := rest, sched := s.sched.drop 2,
       trace := receiving s.cfg.idleByte [c0, c1] ++ s.trace })
  ∧ ∀ (s : State) (b : Byte) (rest : List Answer), s.cfg.ok = true → noTick 1 s → s.phase = .rdCrc ∨ s.phase = .qscCrc →
    s.card = .byte b :: rest →
    let u := { afterX s.cfg.idleByte b rest s with sched := s.sched.drop 1 }
    (s.pos = .crc false → step s = .next { u with pos := .crc true }) ∧
    (s.pos = .crc true →
      step s = .next { u with pos := .deselect (.done (if s.phase = .qscCrc then .cmd9 else .cmd17)) })

/-- TOKEN_START, received in the token wait: the data phase begins at index 0, even with the countdown at 0; sent after the dummy byte of a
write: the data of the write begins at index 0, whatever byte comes back. -/
def Obligations.StartTokenBeginsTheData : Prop :=
  ∀ (s : State) (rest : List Answer), s.cfg.ok = true →
    (s.pos = .tokenWait → s.phase = .rdTokenWait → s.card = .byte s.cfg.tokenStart :: rest →
      exec .tokenStart s = .next { afterX s.cfg.idleByte s.cfg.tokenStart rest s with phase := .rdData, idx := 0, pos := .data }) ∧
    (s.pos = .tokenWait → s.phase = .qscTokenWait → s.card = .byte s.cfg.tokenStart :: rest →
      exec .tokenStart s = .next { afterX s.cfg.idleByte s.cfg.tokenStart rest s with phase := .qscData, idx := 0, pos := .data }) ∧
    (s.pos = .leadToken → ∀ i : Byte, s.card = .byte i :: rest →
      exec .tokenStart s = .next { afterX s.cfg.tokenStart i rest s with phase := .wrData, idx := 0, pos := .sendData })

/-- Any other byte of the token wait: 0xFF keeps waiting until the countdown is 0, and then fails; any other value fails at once.
Both failures are `DataTokenError` after `deselect()`. -/
def Obligations.TokenWaitOnOtherBytes : Prop :=
  ∀ (s : State) (b : Byte) (rest : List Answer), s.cfg.ok = true → s.pos = .tokenWait → s.card = .byte b :: rest →
    b ≠ s.cfg.tokenStart →
    (b = 0xFF → s.cnt ≠ 0 → exec .idleByte s = .next (afterX s.cfg.idleByte b rest s)) ∧
    (b ≠ 0xFF ∨ s.cnt = 0 → exec .idleByte s =
      .next { afterX s.cfg.idleByte b rest s with pos := .deselect (.raise .dataTokenError) })

/-- What surrounds the data of a write, whatever comes back: one idle byte and the start token before it, and the data phase begins at
index 0; two idle bytes after it, and the data response is read next. And as single steps, between any two of which ticks may fall
(`TickCountsDown`). -/
def Obligations.WriteLeadAndStub : Prop :=
  (∀ (s : State) (i0 i1 : Byte) (rest : List Answer), s.cfg.ok = true → noTick 2 s → answering [i0, i1] rest s →
     let u := { s with card := rest, sched := s.sched.drop 2 }
     (s.pos = .leadDummy → run 2 s = .next { u with
       phase := .wrData, idx := 0, pos := .sendData,
       trace := .x s.cfg.tokenStart i1 :: .x s.cfg.idleByte i0 :: s.trace }) ∧
     (s.pos = .stub false → run 2 s = .next { u with
       phase := .wrDataResp, pos := .dresp, trace := .x s.cfg.idleByte i1 :: .x s.cfg.idleByte i0 :: s.trace }))
  ∧ ∀ (s : State) (i : Byte) (rest : List Answer), s.cfg.ok = true → noTick 1 s → s.card = .byte i :: rest →
    let u := { afterX s.cfg.idleByte i rest s with sched := s.sched.drop 1 }
    (s.pos = .leadDummy → step s = .next { u with pos := .leadToken }) ∧
    (s.pos = .leadToken → step s = .next { u with
      phase := .wrData, idx := 0, pos := .sendData, trace := .x s.cfg.tokenStart i :: s.trace }) ∧
    (s.pos = .stub false → step s = .next { u with pos := .stub true }) ∧
    (s.pos = .stub true → step s = .next { u with phase := .wrDataResp, pos := .dresp })

/-- A data byte of a WRITE: the byte at offset `blk*512 + idx` of the host buffer is sent in the step that reads it; the received byte is
discarded; nothing changes but the index, or the phase after the last. That the index keeps 511 after the last byte is the model's reading
(log 13). -/
def Obligations.DataByteIsSent : Prop :=
  ∀ (s : State) (i : Byte) (rest : List Answer), s.cfg.ok = true → noTick 1 s → s.pos = .sendData → s.blk < s.count →
    s.idx.toNat < 512 → s.card = .byte i :: rest →
    let u := { afterX (s.hostbuf.read (s.blk.toNat * 512 + s.idx.toNat)) i rest s with sched := s.sched.drop 1 }
    step s = .next (if s.idx.toNat < 511 then { u with idx := s.idx + 1 } else { u with phase := .wrCrc, pos := .stub false })

/-- The data-response byte, by its class under `DR_MASK`: DRESP_ACCEPT starts the busy-wait with the countdown loaded; DRESP_CRC_ERR,
DRESP_WRITE_ERR and every other value are `WriteRejected` after `deselect()`. `dresp` keeps the whole byte in every case. -/
def Obligations.DataResponseDecides : Prop :=
  ∀ (s : State) (b : Byte) (rest : List Answer), s.cfg.ok = true → s.pos = .dresp → s.card = .byte b :: rest →
    let u := { afterX s.cfg.idleByte b rest s with dresp := b }
    (b &&& s.cfg.drMask = s.cfg.drAccept → exec (.drespAccept b) s =
      .next { u with phase := .wrBusyWait, cnt := s.cfg.tBusy, pos := .busyWait }) ∧
    (b &&& s.cfg.drMask = s.cfg.drCrcErr → exec (.drespCrcErr b) s = .next { u with pos := .deselect (.raise .writeRejected) }) ∧
    (b &&& s.cfg.drMask = s.cfg.drWriteErr →
      exec (.drespWriteErr b) s = .next { u with pos := .deselect (.raise .writeRejected) }) ∧
    (b &&& s.cfg.drMask ∉ [s.cfg.drAccept, s.cfg.drCrcErr, s.cfg.drWriteErr] →
      exec .idleByte s = .next { u with pos := .deselect (.raise .writeRejected) })

/-- The busy-wait: 0xFF ends it, even with the countdown at 0, and the block counts as written (log 13); any other byte keeps waiting
until the countdown is 0, and then is `BusyTimeout` after `deselect()`. -/
def Obligations.BusyWaitEndsOnAllOnes : Prop :=
  ∀ (s : State) (b : Byte) (rest : List Answer), s.cfg.ok = true → s.pos = .busyWait → s.card = .byte b :: rest →
    (b = 0xFF → exec .idleByte s =
      .next { afterX s.cfg.idleByte b rest s with blk := s.blk + 1, pos := .deselect (.done .cmd24) }) ∧
    (b ≠ 0xFF → s.cnt ≠ 0 → exec .idleByte s = .next (afterX s.cfg.idleByte b rest s)) ∧
    (b ≠ 0xFF → s.cnt = 0 →
      exec .idleByte s = .next { afterX s.cfg.idleByte b rest s with pos := .deselect (.raise .busyTimeout) })

/-! ## A whole block -/

/-- The data phase of a read, from its start: 512 bytes received, whatever they are, stand in the host buffer in the order received at
`blk*512` and above, every other byte of the buffer is unchanged, and the CRC bytes follow. -/
def Obligations.ReadBlockIsDelivered : Prop :=
  ∀ (s : State) (bs : List Byte) (rest : List Answer), s.cfg.ok = true → Memory.wf s.hostbuf → bs.length = 512 →
    noTick 512 s → s.pos = .data → s.phase = .rdData → s.idx = 0 → s.blk < s.count → answering bs rest s →
    ∃ t, run 512 s = .next t
      ∧ (∀ k, (h : k < bs.length) → t.hostbuf.read (s.blk.toNat * 512 + k) = bs[k])
      ∧ (∀ off, (off < s.blk.toNat * 512 ∨ s.blk.toNat * 512 + 512 ≤ off) → t.hostbuf.read off = s.hostbuf.read off)
      ∧ t.phase = .rdCrc ∧ t.pos = .crc false ∧ t.card = rest ∧ t.blk = s.blk ∧ t.cs = s.cs
      ∧ t.trace = receiving s.cfg.idleByte bs ++ s.trace

/-- The data phase of a write, from its start: the 512 bytes of the host buffer at `blk*512` and above go out in buffer order, whatever
comes back; the buffer is unchanged and the CRC stub follows. -/
def Obligations.WriteBlockIsSent : Prop :=
  ∀ (s : State) (is : List Byte) (rest : List Answer), s.cfg.ok = true → is.length = 512 → noTick 512 s → s.pos = .sendData →
    s.idx = 0 → s.blk < s.count → answering is rest s →
    ∃ t, run 512 s = .next t ∧ t.hostbuf = s.hostbuf ∧ t.phase = .wrCrc ∧ t.pos = .stub false ∧ t.card = rest ∧ t.cs = s.cs
      ∧ t.trace = (is.mapIdx fun k i => Event.x (s.hostbuf.read (s.blk.toNat * 512 + k)) i).reverse ++ s.trace

/-- After the span of a block, which `blk` counts after a READ's release byte and since a WRITE's busy-wait ended (log 13): the next
block's command is called with its own translated address, or the operation ends with `(OK, None)` and `blk = count`. -/
def Obligations.BlocksFollowInOrder : Prop :=
  ∀ (s : State) (i : Byte) (rest : List Answer), s.cfg.ok = true → s.card = .byte i :: rest →
    let u := afterX s.cfg.idleByte i rest s
    (s.pos = .release (.done .cmd17) →
      (s.blk.toNat + 1 < s.count.toNat → exec .idleByte s =
        .next (calling .cmd17 (translate s.version (s.sector + (s.blk + 1)))
          { u with blk := s.blk + 1, phase := .rdCommand })) ∧
      (s.blk.toNat + 1 = s.count.toNat → exec .idleByte s = .next (ended .ok .none { u with blk := s.count }))) ∧
    (s.pos = .release (.done .cmd24) →
      (s.blk < s.count → exec .idleByte s =
        .next (calling .cmd24 (translate s.version (s.sector + s.blk)) { u with phase := .wrCommand })) ∧
      (s.blk = s.count → exec .idleByte s = .next (ended .ok .none u)))

/-- The addresses of an admitted operation: no block's sector index wraps, a block-addressed card gets it unchanged, a byte-addressed card
gets it times 512 without loss, at most 0xFFFFFE00. -/
def Obligations.AddressesDoNotWrap : Prop :=
  ∀ (v : Version) (sector count blk : Word), parametersOk v sector count = true → blk < count →
    (sector + blk).toNat = sector.toNat + blk.toNat
    ∧ (v = .v2Block → translate v (sector + blk) = sector + blk)
    ∧ (v = .v1 ∨ v = .v2Byte ∨ v = .mmcV3 →
        (translate v (sector + blk)).toNat = (sector.toNat + blk.toNat) * 512
        ∧ (translate v (sector + blk)).toNat ≤ 0xFFFFFE00)

/-! ## Initialize -/

/-- INIT is admitted in every session state of an idle block: it clears the session and the degraded flag and goes to the clock step. -/
def Obligations.InitIsAlwaysAdmitted : Prop :=
  ∀ (sector count : Word) (s : State), s.pos = .idle →
    exec (.init sector count) s = .next { started .init sector count s with
      ready := false, version := .unknown, degraded := false, phase := .initReset, pos := .clkSlow }

/-- `clockDown()`: CLK(Slow) whatever the tier was; the forced deassert follows only if chip-select is asserted, with its one event. And both
as single steps, between which ticks may fall (`TickCountsDown`). -/
def Obligations.ClockDownAlwaysEmits : Prop :=
  (∀ s : State, s.cfg.ok = true → noTick 1 s → s.pos = .clkSlow →
     (s.cs = .deasserted → step s = .next { s with
       clkTier := .slow, pos := .powerOn 0, sched := s.sched.drop 1, trace := .clk .slow :: s.trace }) ∧
     (s.cs = .asserted → noTick 2 s → run 2 s = .next { s with
       clkTier := .slow, cs := .deasserted, pos := .powerOn 0, sched := s.sched.drop 2,
       trace := .cs .deasserted :: .clk .slow :: s.trace }))
  ∧ ∀ s : State, s.cfg.ok = true → noTick 1 s →
    (s.pos = .clkSlow → s.cs = .asserted → step s = .next { s with
      clkTier := .slow, pos := .csForce, sched := s.sched.drop 1, trace := .clk .slow :: s.trace }) ∧
    (s.pos = .csForce → step s = .next { s with
      cs := .deasserted, pos := .powerOn 0, sched := s.sched.drop 1, trace := .cs .deasserted :: s.trace })

/-- From an idle block with INIT requested, the transport answering: START, CLK(Slow), exactly `POWERON_BYTES` idle bytes with chip-select
deasserted at the slow tier, whatever comes back, and only then the reset command is called, with argument 0. And as single steps, between
any two of which ticks may fall (`TickCountsDown`): each power-on byte is an idle byte and is counted, and after the last of `POWERON_BYTES`
the reset command is called; the two steps before them are those of `InitIsAlwaysAdmitted` and `ClockDownAlwaysEmits`. -/
def Obligations.PowerOnBytesPrecedeTheResetCommand : Prop :=
  (∀ (s : State) (sector count : Word) (buffer : List Byte) (hs : List HostMove) (is : List Byte) (rest : List Answer),
     s.cfg.ok = true → s.pos = .idle → s.cs = .deasserted → s.host = .start 0 sector count buffer :: hs →
     is.length = s.cfg.powerOnBytes →
     noTick (is.length + 2) s → answering is rest s →
     run (is.length + 2) s = .next { s with
       op := .init, sector := sector, count := count, busy := true, ready := false, version := .unknown, degraded := false,
       phase := .initReset, clkTier := .slow, arg := 0, pos := .issue .cmd0, host := hs, card := rest,
       sched := s.sched.drop (is.length + 2),
       trace := receiving s.cfg.idleByte is ++ [.clk .slow, .start .init sector count []] ++ s.trace })
  ∧ ∀ (s : State) (sent : Nat) (i : Byte) (rest : List Answer), s.cfg.ok = true → noTick 1 s → s.pos = .powerOn sent →
    s.card = .byte i :: rest →
    let u := { afterX s.cfg.idleByte i rest s with sched := s.sched.drop 1 }
    (sent + 1 < s.cfg.powerOnBytes → step s = .next { u with pos := .powerOn (sent + 1) }) ∧
    (sent + 1 = s.cfg.powerOnBytes → step s = .next (calling .cmd0 0 u))

/-- After the reset command's span: R1 0x01 goes on to the voltage check; any other byte is `NoInit`. -/
def Obligations.ResetMustAnswerIdle : Prop :=
  ∀ (s : State) (i : Byte) (rest : List Answer), s.cfg.ok = true → s.pos = .release (.done .cmd0) → s.op = .init →
    s.card = .byte i :: rest →
    (s.r1 = 0x01 → exec .idleByte s =
      .next (calling .cmd8 s.cfg.vcheckArg { afterX s.cfg.idleByte i rest s with phase := .initVoltageCheck })) ∧
    (s.r1 ≠ 0x01 → exec .idleByte s = .next (initFailed .notInitialized .noInit (afterX s.cfg.idleByte i rest s)))

/-- After the voltage check's span: an error or no response takes the legacy path; a matching echo takes the SDv2 path; a mismatch is
`NoInit`, or the SDv2 path degraded, by policy. Either path loads the countdown and sends the marker. -/
def Obligations.VoltageCheckChoosesThePath : Prop :=
  ∀ (s : State) (i : Byte) (rest : List Answer), s.cfg.ok = true → s.pos = .release (.done .cmd8) → s.op = .init →
    s.card = .byte i :: rest →
    let u := { afterX s.cfg.idleByte i rest s with cnt := s.cfg.tOpcond }
    (s.r1 ≠ 0x00 → s.r1 ≠ 0x01 → exec .idleByte s = .next (calling .cmd55 0 { u with phase := .initLegacyProbe })) ∧
    (s.r1 = 0x00 ∨ s.r1 = 0x01 → s.trailing &&& s.cfg.vcheckMask = s.cfg.vcheckArg &&& s.cfg.vcheckMask →
      exec .idleByte s = .next (calling .cmd55 0 { u with phase := .initSdv2Wait })) ∧
    (s.r1 = 0x00 ∨ s.r1 = 0x01 → s.trailing &&& s.cfg.vcheckMask ≠ s.cfg.vcheckArg &&& s.cfg.vcheckMask →
      (s.cfg.pVcheckMismatch = .fail →
        exec .idleByte s = .next (initFailed .notInitialized .noInit (afterX s.cfg.idleByte i rest s))) ∧
      (s.cfg.pVcheckMismatch = .degrade →
        exec .idleByte s = .next (calling .cmd55 0 { u with phase := .initSdv2Wait, degraded := true })))

/-- After the marker's span its R1 is not examined: the operating-condition command follows, with the high-capacity request on the SDv2
path and argument 0 on the legacy path, where the probe keeps the R1 for its test. -/
def Obligations.MarkerIsFollowedByOpCond : Prop :=
  ∀ (s : State) (i : Byte) (rest : List Answer), s.pos = .release (.done .cmd55) → s.card = .byte i :: rest →
    (s.phase = .initSdv2Wait →
      exec .idleByte s = .next (calling .acmd41Hcs s.cfg.hcsArg (afterX s.cfg.idleByte i rest s))) ∧
    (s.phase = .initLegacyProbe →
      exec .idleByte s = .next (calling .acmd41Legacy 0 { afterX s.cfg.idleByte i rest s with r55 := s.r1 })) ∧
    (s.phase = .initLegacyWait → exec .idleByte s = .next (calling .acmd41Legacy 0 (afterX s.cfg.idleByte i rest s)))

/-- One turn of the three operating-condition waits, after ACMD41 on the SDv2 path, after ACMD41 on the legacy SD path and after CMD1 on the
MMC path: R1 0x00 leaves the wait, whatever the countdown, for the OCR read or with the card classified for the block-length
command; otherwise a countdown at 0 is `Timeout`, and a running one tries again with the path's own commands. -/
def Obligations.OpCondWaitTurn : Prop :=
  ∀ (s : State) (i : Byte) (rest : List Answer), s.cfg.ok = true → s.op = .init → s.card = .byte i :: rest →
    let u := afterX s.cfg.idleByte i rest s
    (s.pos = .release (.done .acmd41Hcs) →
      (s.r1 = 0x00 → exec .idleByte s = .next (calling .cmd58 0 { u with phase := .initOcrRead })) ∧
      (s.r1 ≠ 0x00 → s.cnt = 0 → exec .idleByte s = .next (initFailed .ioError .timeout u)) ∧
      (s.r1 ≠ 0x00 → s.cnt ≠ 0 → exec .idleByte s = .next (calling .cmd55 0 u))) ∧
    (s.phase = .initLegacyWait → s.pos = .release (.done .acmd41Legacy) →
      (s.r1 = 0x00 → exec .idleByte s =
        .next (calling .cmd16 512 { u with version := .v1, phase := .initForceBlockLength })) ∧
      (s.r1 ≠ 0x00 → s.cnt = 0 → exec .idleByte s = .next (initFailed .ioError .timeout u)) ∧
      (s.r1 ≠ 0x00 → s.cnt ≠ 0 → exec .idleByte s = .next (calling .cmd55 0 u))) ∧
    (s.phase = .initLegacyWait → s.pos = .release (.done .cmd1) →
      (s.r1 = 0x00 → exec .idleByte s =
        .next (calling .cmd16 512 { u with version := .mmcV3, phase := .initForceBlockLength })) ∧
      (s.r1 ≠ 0x00 → s.cnt = 0 → exec .idleByte s = .next (initFailed .ioError .timeout u)) ∧
      (s.r1 ≠ 0x00 → s.cnt ≠ 0 → exec .idleByte s = .next (calling .cmd1 0 u)))

/-- After the OCR read's span: R1 other than 0x00 is `OcrReadFailed`; otherwise the high-capacity bit classifies the card. A
block-addressed card goes straight to the speed-up, a byte-addressed one to the block-length command. -/
def Obligations.OcrClassifiesTheCard : Prop :=
  ∀ (s : State) (i : Byte) (rest : List Answer), s.cfg.ok = true → s.pos = .release (.done .cmd58) → s.op = .init →
    s.card = .byte i :: rest →
    (s.r1 ≠ 0x00 → exec .idleByte s =
      .next (initFailed .notInitialized .ocrReadFailed (afterX s.cfg.idleByte i rest s))) ∧
    (s.r1 = 0x00 → s.trailing.getLsbD s.cfg.ccsBit.val = true → exec .idleByte s =
      .next { afterX s.cfg.idleByte i rest s with version := .v2Block, phase := .initSpeedUp, pos := .clkFast }) ∧
    (s.r1 = 0x00 → s.trailing.getLsbD s.cfg.ccsBit.val = false → exec .idleByte s =
      .next (calling .cmd16 512
        { afterX s.cfg.idleByte i rest s with version := .v2Byte, phase := .initForceBlockLength }))

/-- After the probe's ACMD41: an "illegal command" in either R1 of the probe (bit 7 clear, bit 2 set) falls back to the legacy initiate
without reloading the countdown; otherwise the SD path, where this R1 counts as the first attempt. -/
def Obligations.LegacyProbeChoosesThePath : Prop :=
  ∀ (s : State) (i : Byte) (rest : List Answer), s.cfg.ok = true → s.pos = .release (.done .acmd41Legacy) → s.op = .init →
    s.phase = .initLegacyProbe → s.card = .byte i :: rest →
    let u := { afterX s.cfg.idleByte i rest s with phase := .initLegacyWait }
    let illegal := fun r : Byte => r.getLsbD 7 = false ∧ r.getLsbD 2 = true
    (illegal s.r55 ∨ illegal s.r1 → exec .idleByte s = .next (calling .cmd1 0 { u with path := .mmc })) ∧
    (¬ illegal s.r55 → ¬ illegal s.r1 →
      (s.r1 = 0x00 → exec .idleByte s = .next (calling .cmd16 512
        { u with path := .sd1, version := .v1, phase := .initForceBlockLength })) ∧
      (s.r1 ≠ 0x00 → s.cnt = 0 → exec .idleByte s = .next (initFailed .ioError .timeout { u with path := .sd1 })) ∧
      (s.r1 ≠ 0x00 → s.cnt ≠ 0 → exec .idleByte s = .next (calling .cmd55 0 { u with path := .sd1 })))

/-- After the block-length command's span: R1 0x00 goes on to the speed-up; any other byte is `NoInit`, or goes on degraded, by
policy. -/
def Obligations.BlockLengthOutcome : Prop :=
  ∀ (s : State) (i : Byte) (rest : List Answer), s.cfg.ok = true → s.pos = .release (.done .cmd16) → s.op = .init →
    s.card = .byte i :: rest →
    let u := { afterX s.cfg.idleByte i rest s with phase := .initSpeedUp, pos := .clkFast }
    (s.r1 = 0x00 → exec .idleByte s = .next u) ∧
    (s.r1 ≠ 0x00 → s.cfg.pBlocklenFail = .fail →
      exec .idleByte s = .next (initFailed .notInitialized .noInit (afterX s.cfg.idleByte i rest s))) ∧
    (s.r1 ≠ 0x00 → s.cfg.pBlocklenFail = .degrade → exec .idleByte s = .next { u with degraded := true })

/-- `speedUp()` and `finish()`: CLK(Fast), the session is ready, a degraded one with `version = Unknown`, and DONE(OK, None) is next. And
the first of the two as a single step, after which ticks may fall (`TickCountsDown`). -/
def Obligations.SpeedUpMakesTheSessionReady : Prop :=
  (∀ s : State, s.cfg.ok = true → noTick 2 s → s.pos = .clkFast →
     run 2 s = .next { s with
       clkTier := .fast, version := if s.degraded then .unknown else s.version, ready := true, lastStatus := .ok,
       fail := .none, phase := .idle, busy := false, pos := .idle, sched := s.sched.drop 2,
       trace := .done .ok .none :: .clk .fast :: s.trace })
  ∧ ∀ s : State, s.cfg.ok = true → noTick 1 s → s.pos = .clkFast →
    step s = .next (ended .ok .none { s with
      clkTier := .fast, version := if s.degraded then .unknown else s.version, ready := true, sched := s.sched.drop 1,
      trace := .clk .fast :: s.trace })

/-! ## Host operations -/

/-- GETVER and QSIZE, in any session state of an idle block: `result` is the zero-extended version code, or 512; no bus event, and
DONE(OK, None) is the next event. -/
def Obligations.QueriesAnswerAtOnce : Prop :=
  ∀ (sector count : Word) (s : State), s.cfg.ok = true → s.pos = .idle → noTick 1 s →
    (∃ t, exec (.getver sector count) s = .next t
      ∧ t = ended .ok .none { started .getver sector count s with
          result := match s.version with
            | .unknown => 0 | .v1 => 1 | .v2Byte => 2 | .v2Block => 3 | .mmcV3 => 4 }
      ∧ step t = .next (reported t)) ∧
    (∃ t, exec (.qsize sector count) s = .next t
      ∧ t = ended .ok .none { started .qsize sector count s with result := 512 } ∧ step t = .next (reported t))

/-- The reserved operation codes 6 and 7: refused, DONE(ParameterError, None) is the next event, no bus event, and no register changes but
the status, the failure code and the latched operands. -/
def Obligations.ReservedOperationsAreRefused : Prop :=
  ∀ (sector count : Word) (s : State), s.cfg.ok = true → s.pos = .idle → noTick 1 s →
    (∃ t, exec (.reserved6 sector count) s = .next t
      ∧ t = ended .parameterError .none (started .reserved6 sector count s) ∧ step t = .next (reported t)) ∧
    (∃ t, exec (.reserved7 sector count) s = .next t
      ∧ t = ended .parameterError .none (started .reserved7 sector count s) ∧ step t = .next (reported t))

/-- READ, WRITE and, where it is implemented, QCOUNT without a session: refused with DONE(NotInitialized, None) as the next event, before
any bus event and whatever the operands. -/
def Obligations.NoSessionNoTransfer : Prop :=
  ∀ (sector count : Word) (s : State), s.pos = .idle → s.ready = false ∨ s.version = .unknown →
    exec (.read sector count) s = .next (ended .notInitialized .none (started .read sector count s))
    ∧ exec (.write sector count) s = .next (ended .notInitialized .none (started .write sector count s))
    ∧ (s.cfg.hasQsc = true →
        exec (.qcount sector count) s = .next (ended .notInitialized .none (started .qcount sector count s)))

/-- READ and WRITE with a session: with `max` the largest sector of the card's addressing, admitted exactly when `count >= 1` and
`sector + count - 1 <= max` in unbounded arithmetic, and then the first block's command is called; refused with
DONE(ParameterError, None) otherwise. -/
def Obligations.ParameterChecksDecideAdmission : Prop :=
  ∀ (sector count : Word) (s : State), s.pos = .idle → s.ready = true → s.version ≠ .unknown →
    let max := if s.version = .v2Block then 0xFFFFFFFF else 0x007FFFFF
    let good := 1 ≤ count.toNat ∧ sector.toNat + count.toNat ≤ max + 1
    (good →
      exec (.read sector count) s = .next (calling .cmd17 (translate s.version sector)
        { started .read sector count s with blk := 0, phase := .rdCommand })
      ∧ exec (.write sector count) s = .next (calling .cmd24 (translate s.version sector)
        { started .write sector count s with blk := 0, phase := .wrCommand })) ∧
    (¬ good →
      exec (.read sector count) s = .next (ended .parameterError .none (started .read sector count s))
      ∧ exec (.write sector count) s = .next (ended .parameterError .none (started .write sector count s)))

/-- QCOUNT: refused with DONE(ParameterError, None) where it is not implemented; with a session, the card-size register command is
called with argument 0. -/
def Obligations.QueryCountAdmission : Prop :=
  ∀ (sector count : Word) (s : State), s.pos = .idle →
    (s.cfg.hasQsc = false →
      exec (.qcount sector count) s = .next (ended .parameterError .none (started .qcount sector count s))) ∧
    (s.cfg.hasQsc = true → s.ready = true → s.version ≠ .unknown →
      exec (.qcount sector count) s =
        .next (calling .cmd9 0 { started .qcount sector count s with phase := .qscCommand }))

/-- The CSD after its span: structure version 1 with a size that fits gives `result = (c_size + 1) * 1024`, computed without a wrap, and
(OK, None); any other structure version, and the one size that does not fit, are `CsdUnsupported` with `result` unchanged. -/
def Obligations.CsdGivesTheSectorCount : Prop :=
  ∀ (s : State) (i : Byte) (rest : List Answer), s.pos = .release (.done .cmd9) → s.op = .qcount → s.card = .byte i :: rest →
    let cSize := (s.csd[7].toNat % 64) * 65536 + s.csd[8].toNat * 256 + s.csd[9].toNat
    (s.csd[0].toNat / 64 = 1 → cSize ≠ 0x3FFFFF →
      ∃ r : Word, r.toNat = (cSize + 1) * 1024 ∧
        exec .idleByte s = .next (ended .ok .none { afterX s.cfg.idleByte i rest s with result := r })) ∧
    (s.csd[0].toNat / 64 ≠ 1 ∨ cSize = 0x3FFFFF →
      exec .idleByte s = .next (ended .parameterError .csdUnsupported (afterX s.cfg.idleByte i rest s)))

/-! ## Failures -/

/-- A failure raised after its `deselect()`: the operation is abandoned, the status is the failure's, an Initialize loses its session, and
nothing else is undone. -/
def Obligations.RaiseAbandonsTheOperation : Prop :=
  ∀ (f : Fail) (s : State) (i : Byte) (rest : List Answer), s.pos = .release (.raise f) → s.card = .byte i :: rest →
    (s.op ≠ .init → exec .idleByte s = .next (ended (statusOf f) f (afterX s.cfg.idleByte i rest s))) ∧
    (s.op = .init → exec .idleByte s = .next (initFailed (statusOf f) f (afterX s.cfg.idleByte i rest s)))

/-- The status of every failure code. -/
def Obligations.StatusOfEveryFailure : Prop :=
  statusOf .none = .ok ∧ statusOf .noInit = .notInitialized ∧ statusOf .ocrReadFailed = .notInitialized
  ∧ statusOf .timeout = .ioError ∧ statusOf .busTimeout = .ioError ∧ statusOf .commandRejected = .ioError
  ∧ statusOf .dataTokenError = .ioError ∧ statusOf .writeRejected = .ioError ∧ statusOf .busyTimeout = .ioError
  ∧ statusOf .csdUnsupported = .parameterError

/-- The last event of an operation: DONE with the status and the failure code recorded, nothing else changed, and the block is idle for the
host, which has read access to the outcome and to what a failure leaves behind from then on. While an operation is in flight the host has
no read access; the step before DONE counts as in flight, although `busy` is 0 there already (the model's reading, log 2). -/
def Obligations.DoneReportsTheOutcome : Prop :=
  (∀ s : State, s.cfg.ok = true → noTick 1 s → s.pos = .done → step s = .next (reported s)
    ∧ (hostPort (reported s)).read = some {
        lastStatus := s.lastStatus.code, fail := s.fail.code, blk := s.blk, r1 := s.r1, trailing := s.trailing,
        dresp := s.dresp, hostbuf := s.hostbuf })
  ∧ ∀ s : State, Inv s → (s.busy = true ∨ s.pos = .done) → (hostPort s).read = none

/-- An exchange that the transport does not complete, at any exchange of any operation: XT with the byte presented; then, inside a span,
CS(0) as the block's very next event without a release byte, and the operation ends with (IOError, BusTimeout); outside a span it ends at
once. An Initialize loses its session. Nothing else changes. That CS(0) is also stated as a single step, before which ticks may fall
(`TickCountsDown`). -/
def Obligations.BusTimeoutAborts : Prop :=
  (∀ (s : State) (o : Byte) (rest : List Answer), Inv s → noTick 2 s → busOut s = some o → s.card = .timeout :: rest →
     let u := { s with card := rest, trace := .xt o :: s.trace }
     let e := fun t : State =>
       if s.op = .init then initFailed .ioError .busTimeout t else ended .ioError .busTimeout t
     (s.cs = .asserted →
       step s = .next { u with sched := s.sched.drop 1, pos := .abort } ∧
       run 2 s = .next (e { u with cs := .deasserted, trace := .cs .deasserted :: u.trace, sched := s.sched.drop 2 })) ∧
     (s.cs = .deasserted → step s = .next (e { u with sched := s.sched.drop 1 })))
  ∧ ∀ s : State, s.cfg.ok = true → noTick 1 s → s.pos = .abort →
    let u := { s with cs := .deasserted, trace := .cs .deasserted :: s.trace, sched := s.sched.drop 1 }
    step s = .next (if s.op = .init then initFailed .ioError .busTimeout u else ended .ioError .busTimeout u)

/-! ## The tick -/

/-- TICK, at any position: `ms` counts modulo 2^32, `cnt` goes down by one and stays at 0, nothing else changes. -/
def Obligations.TickCountsDown : Prop :=
  ∀ s : State, s.cfg.ok = true → tickMoves s = true →
    ∃ t, step s = .next t ∧ t.ms.toNat = (s.ms.toNat + 1) % 2 ^ 32 ∧ t.cnt.toNat = s.cnt.toNat - 1
      ∧ t = { s with ms := t.ms, cnt := t.cnt, sched := s.sched.drop 1, trace := .tick :: s.trace }

/-- The two timeout mechanisms do not read each other: at a poll, two states that differ only in `cnt` step alike, and at a place where
the countdown is sampled, two states that differ only in `poll_cnt` step alike. -/
def Obligations.TimeoutMechanismsAreSeparate : Prop :=
  (∀ (s t : State) (v : BitVec 16) (c : Cmd), s.pos = .poll c → noTick 1 s → step s = .next t →
    ∃ w, step { s with cnt := v } = .next { t with cnt := w }) ∧
  (∀ (s t : State) (v : BitVec 8) (q : Pos), s.pos = q → (q = .tokenWait ∨ q = .busyWait ∨ ∃ a, q = .release a) →
    step s = .next t → step { s with pollCnt := v } = .next { t with pollCnt := v })

/-! ## The whole machine -/

/-- A step runs the instruction that the block's next event decodes to: on the host port the operation of START, its buffer argument
presented (log 15); where a command is called its frame; in a poll, a token wait and a data response the byte the transport answers
(log 9; the byte layout of a host word is log 18). Every other exchange that sends the idle byte runs IDLE_BYTE: at every other position
that sends it, for a byte of the token wait or the data response that is no row, and where the transport answers with a timeout or not
yet. The token sent before the data of a write runs TOKEN_START. -/
def Obligations.StepRunsTheDecodedInstruction : Prop :=
  ∀ s : State, s.cfg.ok = true → s.cfg.decodable = true → noTick 1 s →
    let u := { s with sched := s.sched.drop 1 }
    (∀ i op sector count buffer hs, s.pos = .idle → s.host = .start op sector count buffer :: hs →
      decode s.cfg .host (encodeOp op sector count) = .ok (i, []) →
      step s = exec i (presented op count buffer { u with host := hs })) ∧
    (∀ i c, s.pos = .issue c → s.arg = c.argument s.cfg s.arg →
      decode s.cfg .frame (frameOf s.cfg (c.index s.cfg) s.arg).toList = .ok (i, []) → step s = exec i u) ∧
    (∀ i c b rest, s.pos = .poll c → s.card = .byte b :: rest → decode s.cfg .r1 [b] = .ok (i, []) → step s = exec i u) ∧
    (∀ b rest, s.pos = .tokenWait → s.card = .byte b :: rest →
      (∀ i, decode s.cfg .token [b] = .ok (i, []) → step s = exec i u) ∧
      (decode s.cfg .token [b] = .error .notAToken → step s = exec .idleByte u)) ∧
    (∀ b rest, s.pos = .dresp → s.card = .byte b :: rest →
      (∀ i, decode s.cfg .dresp [b] = .ok (i, []) → step s = exec i u) ∧
      (decode s.cfg .dresp [b] = .error .notADataResponse → step s = exec .idleByte u)) ∧
    (sendsIdle s.pos = true → (∀ c, s.pos ≠ .poll c) → s.pos ≠ .tokenWait → s.pos ≠ .dresp → step s = exec .idleByte u) ∧
    (sendsIdle s.pos = true → (∀ b rest, s.card ≠ .byte b :: rest) → step s = exec .idleByte u) ∧
    (s.pos = .leadToken → step s = exec .tokenStart u)

/-- Every step makes exactly one event, or none: none is a wait for the transport, an idle block with nothing asked of it, a byte the
host writes into its own buffer, or a hardware reset. The waits and the host's two moves are the model's reading (log 1, 14, 15). -/
def Obligations.OneEventPerStep : Prop :=
  ∀ s t : State, Inv s → step s = .next t →
    (∃ e, t.trace = e :: s.trace) ∨
    (t.trace = s.trace ∧ tickMoves s = false ∧
      ((s.card = [] ∧ busOut s ≠ none ∧ t = { s with sched := s.sched.drop 1 }) ∨
       (s.pos = .idle ∧ s.host = [] ∧ t = { s with sched := s.sched.drop 1 }) ∨
       (s.pos = .idle ∧ ∃ m hs, s.host = m :: hs ∧ t.host = hs ∧ ((∃ off b, m = .poke off b) ∨ m = .reset))))

/-- The block after hardware reset: every register the spec gives a reset value has it, and no event is emitted. The registers the spec
leaves unspecified are not spoken of (log 3). That a reset comes as a move of the host on an idle block, and leaves the host's buffer
and the configuration as they are, is the model's choice (log 14). -/
def Obligations.ResetValues : Prop :=
  State.reset.version = .unknown ∧ State.reset.clkTier = .slow ∧ State.reset.lastStatus = .notInitialized
  ∧ State.reset.fail = .none ∧ State.reset.ready = false ∧ State.reset.degraded = false ∧ State.reset.cs = .deasserted
  ∧ State.reset.busy = false ∧ State.reset.phase = .idle ∧ State.reset.cnt = 0 ∧ State.reset.trace = []
  ∧ ∀ s : State, s.cfg.ok = true → noTick 1 s → s.pos = .idle → ∀ hs, s.host = .reset :: hs →
      ∃ t, step s = .next t ∧ t.version = .unknown ∧ t.clkTier = .slow ∧ t.lastStatus = .notInitialized ∧ t.fail = .none
        ∧ t.ready = false ∧ t.degraded = false ∧ t.cs = .deasserted ∧ t.busy = false ∧ t.phase = .idle ∧ t.cnt = 0
        ∧ t.trace = s.trace ∧ sameBytes s t ∧ t.earlier = s.earlier ∧ t.cfg = s.cfg

/-- The invariant holds after reset, and the empty trace is an allowed one. -/
def Obligations.ResetMeetsTheInvariants : Prop := Inv State.reset ∧ WireInv State.reset

/-- Every step from a state of the invariant leads to a state of the invariant. -/
def Obligations.StepKeepsTheInvariant : Prop := ∀ s t : State, Inv s → step s = .next t → Inv t

/-- No state of the invariant stops: whatever the host, the transport and the ticks do, the machine has a next state, an
open wait counting as one (log 1). -/
def Obligations.NoStateOfTheInvariantStops : Prop := ∀ s : State, Inv s → ∃ t, step s = .next t

/-- The order of events on the bus is kept by every step: chip-select events alternate, every CS(0) of a `deselect()` is followed by exactly
one idle byte before the next CS(1), nothing is exchanged between that byte and the next CS(1), a bus timeout inside a span is followed
by CS(0) alone, and no operation ends inside a span. -/
def Obligations.StepKeepsTheBusOrder : Prop := ∀ s t : State, Inv s → WireInv s → step s = .next t → WireInv t

/-- Between operations: chip-select released, `busy` 0, a ready session at the fast tier, a session that is not ready at the slow tier with
an unknown version, and a ready session of unknown version only under a permissive policy. -/
def Obligations.IdleBlockInvariants : Prop :=
  ∀ s t : State, Inv s → step s = .next t → t.phase = .idle →
    t.cs = .deasserted ∧ t.busy = false ∧ (t.ready = true → t.clkTier = .fast)
    ∧ (t.ready = false → t.clkTier = .slow ∧ t.version = .unknown)
    ∧ (t.ready = true → t.version = .unknown → t.cfg.pVcheckMismatch = .degrade ∨ t.cfg.pBlocklenFail = .degrade)

/-- The write sets: a step of an operation in flight, and the START step of an operation once its buffer argument is presented (log 15),
write no register outside the operation's set. -/
def Obligations.OperationsWriteTheirOwnSet : Prop :=
  ∀ s t : State, Inv s → noTick 1 s → step s = .next t →
    (s.phase ≠ .idle → t = writtenBy s.op s t ∧ t.op = s.op ∧ t.sector = s.sector ∧ t.count = s.count) ∧
    (∀ op sector count buffer hs, s.pos = .idle → s.host = .start op sector count buffer :: hs →
      t = writtenBy t.op (presented op count buffer s) t ∧ t.op.code = op ∧ t.sector = sector ∧ t.count = count)

/-- The host's buffers over any step. A byte of the buffer changes only as the byte a READ receives at `blk*512 + idx`, inside the
operation's buffer, or as one the host writes while the block is idle; the buffers of earlier operations do not change. The START of a
READ or a WRITE alone presents another buffer, the first `count * 512` bytes of its argument, and leaves the one before it to the host
(that State keeps it, at which offsets the idle host may write, and what a missing byte reads as, are the model's choice, log 15 and
log 4). -/
def Obligations.BufferChangesOnlyWhereStored : Prop :=
  ∀ s t : State, Inv s → step s = .next t →
    (t.earlier = s.earlier ∧ ∀ off, t.hostbuf.read off ≠ s.hostbuf.read off →
      (s.op = .read ∧ s.phase = .rdData ∧ off = s.blk.toNat * 512 + s.idx.toNat ∧ off < s.count.toNat * 512
        ∧ ∃ rest, s.card = .byte (t.hostbuf.read off) :: rest)
      ∨ (s.phase = .idle ∧ s.pos = .idle ∧ ∃ hs, s.host = .poke off (t.hostbuf.read off) :: hs)) ∨
    (s.phase = .idle ∧ s.pos = .idle ∧ ∃ op sector count buffer hs, s.host = .start op sector count buffer :: hs
      ∧ (op = 1 ∨ op = 2) ∧ t.earlier = s.hostbuf :: s.earlier
      ∧ ∀ off, t.hostbuf.read off = (buffer.take (count.toNat * 512)).getD off Memory.blank)

/-- What a WRITE leaves in `blk`, whatever ends it: the number of blocks whose busy-wait ended. Its START, admitted, sets `blk` to 0; after
that, until its DONE included, the block's step that receives 0xFF in the busy-wait adds 1, and no other step, be it a tick, changes it.
Spelled out for two ends: a timeout of the release byte after the busy-wait leaves the block counted (the prose of 44 R206, which the model
follows where the pseudocode of 43 R176 would not count it, log 13); a busy-wait that ends by the countdown leaves it uncounted. -/
def Obligations.FailedWriteCountsEndedBusyWaits : Prop :=
  (∀ (s t : State) (sector count : Word) (buffer : List Byte) (hs : List HostMove), Inv s → tickMoves s = false → s.pos = .idle →
    s.host = .start 2 sector count buffer :: hs → step s = .next t → t.op = .write ∧ (t.busy = true → t.blk = 0))
  ∧ (∀ s t : State, Inv s → s.op = .write → s.pos ≠ .idle → step s = .next t →
    let waitEnds := tickMoves s = false ∧ s.pos = .busyWait ∧ s.card.head? = some (.byte 0xFF)
    t.op = .write ∧ (waitEnds → t.blk.toNat = s.blk.toNat + 1) ∧ (¬ waitEnds → t.blk = s.blk))
  ∧ ∀ (s : State) (rest : List Answer), s.cfg.ok = true → noTick 3 s → s.pos = .busyWait → s.op = .write → s.blk < s.count →
    (s.card = .byte 0xFF :: .timeout :: rest → ∃ t, run 3 s = .next t ∧ t.blk.toNat = s.blk.toNat + 1
      ∧ t.lastStatus = .ioError ∧ t.fail = .busTimeout ∧ t.pos = .done ∧ t.cs = .deasserted
      ∧ t.trace = [.xt s.cfg.idleByte, .cs .deasserted, .x s.cfg.idleByte 0xFF] ++ s.trace) ∧
    (∀ b i : Byte, b ≠ 0xFF → s.cnt = 0 → s.card = .byte b :: .byte i :: rest → ∃ t, run 3 s = .next t ∧ t.blk = s.blk
      ∧ t.lastStatus = .ioError ∧ t.fail = .busyTimeout ∧ t.pos = .done ∧ t.cs = .deasserted
      ∧ t.trace = [.x s.cfg.idleByte i, .cs .deasserted, .x s.cfg.idleByte b] ++ s.trace)
end

