-- ==== Sys2Proof/Laws/Encoding.lean ====
section
/-! SUPPORT. Small laws of the encodings and of the configuration's constraints. -/

namespace Sys2Proof

/-- What a configuration that is accepted gives. -/
theorem Config.ok_facts {c : Config} (h : c.ok = true) :
    c.blockLen = 512 ∧ c.csdLen = 16 ∧ c.startBits = 0x40 ∧ c.r1NotReady = 0x80 ∧ c.r1Idle = 0x01 ∧ c.r1Ok = 0x00 := by
  simp only [Config.ok, Config.meetsWidths, List.all_cons, List.all_nil, id_eq, Bool.and_true,
    Bool.and_eq_true, beq_iff_eq] at h
  tauto

theorem Config.ok_responses {c : Config} (h : c.ok = true) :
    c.drAccept ≠ c.drCrcErr ∧ c.drAccept ≠ c.drWriteErr ∧ c.drCrcErr ≠ c.drWriteErr := by
  simp only [Config.ok, Config.meetsR7, List.all_cons, List.all_nil, id_eq, Bool.and_true,
    Bool.and_eq_true, bne_iff_ne] at h
  tauto

theorem Config.ok_budgets {c : Config} (h : c.ok = true) :
    c.r1PollBudget ≠ 0 ∧ 10 ≤ c.powerOnBytes ∧ c.tokenStart ≠ 0xFF := by
  simp only [Config.ok, Config.meetsR7, List.all_cons, List.all_nil, id_eq, Bool.and_true,
    Bool.and_eq_true, bne_iff_ne, decide_eq_true_eq] at h
  refine ⟨by tauto, by omega, by tauto⟩

/-- What a decodable configuration gives. -/
theorem Config.decodable_facts {c : Config} (h : c.decodable = true) :
    c.indices.Nodup ∧ c.hcsArg ≠ 0 ∧ c.idleByte ≠ c.tokenStart := by
  simp only [Config.decodable, Bool.and_eq_true, decide_eq_true_eq, bne_iff_ne] at h
  tauto

theorem Config.default_ok : Config.default.ok = true := by decide

theorem Config.default_decodable : Config.default.decodable = true := by decide

/-- The index field of a first frame byte. -/
theorem startByte_index {c : Config} (h : c.startBits = 0x40) (x : BitVec 6) : (startByte c x).setWidth 6 = x := by
  rw [startByte, h]
  revert x
  decide

/-- A byte with top bits 01 is the first frame byte of its low six bits. -/
theorem startByte_of_top {c : Config} (h : c.startBits = 0x40) (b : Byte) :
    b = startByte c (b.setWidth 6) ↔ b.extractLsb' 6 2 = 1 := by
  rw [startByte, h]
  revert b
  decide

/-- Packing the four bytes of a word gives it back. -/
theorem packWord_wordByte (w : Word) : packWord (wordByte w 0) (wordByte w 1) (wordByte w 2) (wordByte w 3) = w := by
  apply BitVec.eq_of_getLsbD_eq
  intro i hi
  simp only [packWord, wordByte, BitVec.getLsbD_append, BitVec.getLsbD_extractLsb']
  split
  · simp [*]
  · split
    · simp only [show i - 8 < 8 by omega, decide_true, Bool.true_and]
      congr 1; omega
    · split
      · simp only [show i - 8 - 8 < 8 by omega, decide_true, Bool.true_and]
        congr 1; omega
      · simp only [show i - 8 - 8 - 8 < 8 by omega, decide_true, Bool.true_and]
        congr 1; omega

/-- The four bytes of a packed word are the bytes packed. -/
theorem wordByte_packWord (a b c d : Byte) :
    wordByte (packWord a b c d) 0 = a ∧ wordByte (packWord a b c d) 1 = b ∧ wordByte (packWord a b c d) 2 = c
    ∧ wordByte (packWord a b c d) 3 = d := by
  refine ⟨?_, ?_, ?_, ?_⟩ <;> apply BitVec.eq_of_getLsbD_eq <;> intro i hi <;>
    simp only [packWord, wordByte, BitVec.getLsbD_append, BitVec.getLsbD_extractLsb', hi, decide_true, Bool.true_and] <;>
    repeat' split
  all_goals first | omega | (congr 1; omega)

/-- An op code survives the byte it is laid out in. -/
theorem op_byte_round (q : BitVec 3) : (q.setWidth 8 : Byte) &&& 0xF8 = 0 ∧ (q.setWidth 8 : Byte).setWidth 3 = q := by
  revert q
  decide

/-- A byte whose bits 7:3 are 0 is its op code laid out. -/
theorem op_byte_of_low (o : Byte) : o &&& 0xF8 = 0 ↔ o = (o.setWidth 3).setWidth 8 := by
  revert o
  decide

end Sys2Proof
end

