-- ==== Sys2Proof/Laws/Memory.lean ====
section
/-! SUPPORT. The laws of the host buffer: canonical form kept, read after write, frame. -/

namespace Sys2Proof.Machine

theorem Memory.read_nil (off : Nat) : Memory.read [] off = Memory.blank := rfl

/-- The head's offset is below all others, and the tail is in canonical form. -/
theorem Memory.wf_cons {a : Nat} {b : Byte} {m : Memory} :
    Memory.wf ((a, b) :: m) ↔ (∀ c ∈ m, a < c.1) ∧ b ≠ Memory.blank ∧ Memory.wf m := by
  simp only [Memory.wf, List.pairwise_cons, List.forall_mem_cons]
  tauto

/-- An offset below every listed one reads as blank. -/
theorem Memory.read_below {m : Memory} {off : Nat} (h : ∀ c ∈ m, off < c.1) : m.read off = Memory.blank := by
  induction m with
  | nil => rfl
  | cons c m ih =>
    have hc := h c (by simp)
    have hne : off ≠ c.1 := by omega
    simp only [Memory.read, if_neg hne]
    exact ih fun d hd => h d (by simp [hd])

/-- What a write lists: nothing but old entries and the new one. -/
theorem Memory.mem_write {m : Memory} {off : Nat} {v : Byte} {c : Host.Cell} (h : c ∈ m.write off v) :
    c ∈ m ∨ (c = (off, v) ∧ v ≠ Memory.blank) := by
  induction m with
  | nil =>
    simp only [Memory.write] at h
    split at h <;> simp_all
  | cons d m ih =>
    obtain ⟨a, b⟩ := d
    simp only [Memory.write] at h
    split at h
    · split at h
      · exact .inl h
      · rcases List.mem_cons.1 h with h | h
        · exact .inr ⟨h, by assumption⟩
        · exact .inl h
    · split at h
      · split at h
        · exact .inl (List.mem_cons_of_mem _ h)
        · rcases List.mem_cons.1 h with h | h
          · exact .inr ⟨h, by assumption⟩
          · exact .inl (List.mem_cons_of_mem _ h)
      · rcases List.mem_cons.1 h with h | h
        · exact .inl (h ▸ List.mem_cons_self)
        · exact (ih h).imp_left (List.mem_cons_of_mem _)

/-- A write keeps the canonical form. -/
theorem Memory.write_wf {m : Memory} (off : Nat) (v : Byte) (h : Memory.wf m) : Memory.wf (m.write off v) := by
  induction m with
  | nil => simp only [Memory.write]; split <;> simp_all [Memory.wf]
  | cons d m ih =>
    obtain ⟨a, b⟩ := d
    have ⟨hlt, hb, hm⟩ := Memory.wf_cons.1 h
    simp only [Memory.write]
    split
    · split
      · exact h
      · refine Memory.wf_cons.2 ⟨fun c hc => ?_, by assumption, h⟩
        rcases List.mem_cons.1 hc with rfl | hc
        · assumption
        · have := hlt c hc; omega
    · split
      · split
        · exact hm
        · subst_vars
          exact Memory.wf_cons.2 ⟨hlt, by assumption, hm⟩
      · refine Memory.wf_cons.2 ⟨fun c hc => ?_, hb, ih hm⟩
        rcases Memory.mem_write hc with hc | ⟨rfl, -⟩
        · exact hlt c hc
        · simp only; omega

/-- Read after write: the written offset reads as the value written, every other one as before. -/
theorem Memory.read_write {m : Memory} (off : Nat) (v : Byte) (h : Memory.wf m) (k : Nat) :
    (m.write off v).read k = if k = off then v else m.read k := by
  induction m with
  | nil => simp only [Memory.write]; split <;> simp_all [Memory.read]
  | cons d m ih =>
    obtain ⟨a, b⟩ := d
    have ⟨hlt, _, hm⟩ := Memory.wf_cons.1 h
    have below : ∀ j, j < a → Memory.read ((a, b) :: m) j = Memory.blank := fun j hj =>
      Memory.read_below (by
        intro c hc
        rcases List.mem_cons.1 hc with rfl | hc
        · exact hj
        · have := hlt c hc; omega)
    simp only [Memory.write]
    split
    · rename_i hoff
      split
      · rename_i hv
        split
        · rename_i hk; rw [hk, below off hoff, hv]
        · rfl
      · rw [Memory.read]
    · split
      · rename_i hge heq
        subst heq
        split
        · rename_i hv
          by_cases hk : k = off
          · rw [if_pos hk, hk, hv]; exact Memory.read_below hlt
          · rw [if_neg hk, Memory.read, if_neg hk]
        · simp only [Memory.read]
          split <;> rfl
      · rename_i hge hne
        simp only [Memory.read]
        by_cases hk : k = a
        · have : a ≠ off := fun h => hne h.symm
          simp [hk, this]
        · simp only [if_neg hk]; exact ih hm

/-- Reset memory is in canonical form. -/
theorem State.reset_buffer_wf : Memory.wf State.reset.hostbuf := by simp [Memory.wf, State.reset]

/-- Two canonical buffers that read alike everywhere are equal: the form is unique. -/
theorem Memory.eq_of_read {m n : Memory} (hm : Memory.wf m) (hn : Memory.wf n) (h : ∀ k, m.read k = n.read k) : m = n := by
  induction m generalizing n with
  | nil =>
    cases n with
    | nil => rfl
    | cons d n =>
      obtain ⟨a, b⟩ := d
      have := h a
      simp only [Memory.read, if_true] at this
      exact absurd this.symm (Memory.wf_cons.1 hn).2.1
  | cons d m ih =>
    obtain ⟨a, b⟩ := d
    have ⟨hlt, hb, hm'⟩ := Memory.wf_cons.1 hm
    cases n with
    | nil =>
      have := h a
      simp only [Memory.read, if_true] at this
      exact absurd this hb
    | cons e n =>
      obtain ⟨a', b'⟩ := e
      have ⟨hlt', hb', hn'⟩ := Memory.wf_cons.1 hn
      have haa : a = a' := by
        rcases Nat.lt_trichotomy a a' with hlt2 | heq | hlt2
        · have h1 := h a
          rw [Memory.read_below (m := (a', b') :: n) (off := a) (by
            intro c hc
            rcases List.mem_cons.1 hc with rfl | hc
            · exact hlt2
            · have := hlt' c hc; omega)] at h1
          simp only [Memory.read, if_true] at h1
          exact absurd h1 hb
        · exact heq
        · have h1 := h a'
          rw [Memory.read_below (m := (a, b) :: m) (off := a') (by
            intro c hc
            rcases List.mem_cons.1 hc with rfl | hc
            · exact hlt2
            · have := hlt c hc; omega)] at h1
          simp only [Memory.read, if_true] at h1
          exact absurd h1.symm hb'
      subst haa
      have hbb : b = b' := by simpa [Memory.read] using h a
      subst hbb
      have htail : ∀ k, Memory.read m k = Memory.read n k := by
        intro k
        by_cases hk : k = a
        · rw [hk, Memory.read_below hlt, Memory.read_below hlt']
        · simpa [Memory.read, hk] using h k
      rw [ih hm' hn' htail]

/-! ## The buffer of a byte array -/

/-- A byte array from `off` on lists no offset below `off`. -/
theorem Memory.ofBytesAt_from {off : Nat} {bs : List Byte} {c : Host.Cell} (h : c ∈ Memory.ofBytesAt off bs) : off ≤ c.1 := by
  induction bs generalizing off with
  | nil => simp [Memory.ofBytesAt] at h
  | cons b bs ih =>
    simp only [Memory.ofBytesAt] at h
    split at h
    · have := ih h; omega
    · rcases List.mem_cons.1 h with rfl | h
      · exact Nat.le_refl _
      · have := ih h; omega

/-- The buffer of a byte array is in canonical form. -/
theorem Memory.wf_ofBytesAt (off : Nat) (bs : List Byte) : Memory.wf (Memory.ofBytesAt off bs) := by
  induction bs generalizing off with
  | nil => simp [Memory.ofBytesAt, Memory.wf]
  | cons b bs ih =>
    simp only [Memory.ofBytesAt]
    split
    · exact ih _
    · exact Memory.wf_cons.2 ⟨fun c hc => Memory.ofBytesAt_from hc, by assumption, ih _⟩

/-- It reads as the byte array from `off` on, and as blank after its end. -/
theorem Memory.read_ofBytesAt_add (off : Nat) (bs : List Byte) (k : Nat) :
    (Memory.ofBytesAt off bs).read (off + k) = bs.getD k Memory.blank := by
  induction bs generalizing off k with
  | nil => simp [Memory.ofBytesAt, Memory.read]
  | cons b bs ih =>
    have below : Memory.read (Memory.ofBytesAt (off + 1) bs) off = Memory.blank :=
      Memory.read_below fun c hc => Memory.ofBytesAt_from hc
    simp only [Memory.ofBytesAt]
    cases k with
    | zero => split <;> simp_all [Memory.read]
    | succ k =>
      have := ih (off + 1) k
      rw [show off + 1 + k = off + (k + 1) by omega] at this
      split <;> simp_all [Memory.read]

theorem Memory.read_ofBytesAt (bs : List Byte) (k : Nat) :
    (Memory.ofBytesAt 0 bs).read k = bs.getD k Memory.blank := by
  simpa using Memory.read_ofBytesAt_add 0 bs k

end Sys2Proof.Machine
end

