-- ==== Sys2Proof/Laws/State.lean ====
section
/-! SUPPORT. One lemma per field per update of State: what each named update leaves in each field. -/

namespace Sys2Proof.Machine

/-! `emit` -/
@[simp] theorem emit_cfg (e : Event) (s : State) : (emit e s).cfg = s.cfg := rfl
@[simp] theorem emit_version (e : Event) (s : State) : (emit e s).version = s.version := rfl
@[simp] theorem emit_clkTier (e : Event) (s : State) : (emit e s).clkTier = s.clkTier := rfl
@[simp] theorem emit_lastStatus (e : Event) (s : State) : (emit e s).lastStatus = s.lastStatus := rfl
@[simp] theorem emit_fail (e : Event) (s : State) : (emit e s).fail = s.fail := rfl
@[simp] theorem emit_ready (e : Event) (s : State) : (emit e s).ready = s.ready := rfl
@[simp] theorem emit_degraded (e : Event) (s : State) : (emit e s).degraded = s.degraded := rfl
@[simp] theorem emit_cs (e : Event) (s : State) : (emit e s).cs = s.cs := rfl
@[simp] theorem emit_busy (e : Event) (s : State) : (emit e s).busy = s.busy := rfl
@[simp] theorem emit_result (e : Event) (s : State) : (emit e s).result = s.result := rfl
@[simp] theorem emit_op (e : Event) (s : State) : (emit e s).op = s.op := rfl
@[simp] theorem emit_sector (e : Event) (s : State) : (emit e s).sector = s.sector := rfl
@[simp] theorem emit_count (e : Event) (s : State) : (emit e s).count = s.count := rfl
@[simp] theorem emit_blk (e : Event) (s : State) : (emit e s).blk = s.blk := rfl
@[simp] theorem emit_idx (e : Event) (s : State) : (emit e s).idx = s.idx := rfl
@[simp] theorem emit_arg (e : Event) (s : State) : (emit e s).arg = s.arg := rfl
@[simp] theorem emit_frame (e : Event) (s : State) : (emit e s).frame = s.frame := rfl
@[simp] theorem emit_r1 (e : Event) (s : State) : (emit e s).r1 = s.r1 := rfl
@[simp] theorem emit_trailing (e : Event) (s : State) : (emit e s).trailing = s.trailing := rfl
@[simp] theorem emit_dresp (e : Event) (s : State) : (emit e s).dresp = s.dresp := rfl
@[simp] theorem emit_csd (e : Event) (s : State) : (emit e s).csd = s.csd := rfl
@[simp] theorem emit_pollCnt (e : Event) (s : State) : (emit e s).pollCnt = s.pollCnt := rfl
@[simp] theorem emit_path (e : Event) (s : State) : (emit e s).path = s.path := rfl
@[simp] theorem emit_phase (e : Event) (s : State) : (emit e s).phase = s.phase := rfl
@[simp] theorem emit_cnt (e : Event) (s : State) : (emit e s).cnt = s.cnt := rfl
@[simp] theorem emit_ms (e : Event) (s : State) : (emit e s).ms = s.ms := rfl
@[simp] theorem emit_hostbuf (e : Event) (s : State) : (emit e s).hostbuf = s.hostbuf := rfl
@[simp] theorem emit_earlier (e : Event) (s : State) : (emit e s).earlier = s.earlier := rfl
@[simp] theorem emit_pos (e : Event) (s : State) : (emit e s).pos = s.pos := rfl
@[simp] theorem emit_r55 (e : Event) (s : State) : (emit e s).r55 = s.r55 := rfl
@[simp] theorem emit_host (e : Event) (s : State) : (emit e s).host = s.host := rfl
@[simp] theorem emit_card (e : Event) (s : State) : (emit e s).card = s.card := rfl
@[simp] theorem emit_sched (e : Event) (s : State) : (emit e s).sched = s.sched := rfl
@[simp] theorem emit_trace (e : Event) (s : State) : (emit e s).trace = e :: s.trace := rfl

/-! `driveCs` -/
@[simp] theorem driveCs_cfg (l : CsLevel) (s : State) : (driveCs l s).cfg = s.cfg := rfl
@[simp] theorem driveCs_version (l : CsLevel) (s : State) : (driveCs l s).version = s.version := rfl
@[simp] theorem driveCs_clkTier (l : CsLevel) (s : State) : (driveCs l s).clkTier = s.clkTier := rfl
@[simp] theorem driveCs_lastStatus (l : CsLevel) (s : State) : (driveCs l s).lastStatus = s.lastStatus := rfl
@[simp] theorem driveCs_fail (l : CsLevel) (s : State) : (driveCs l s).fail = s.fail := rfl
@[simp] theorem driveCs_ready (l : CsLevel) (s : State) : (driveCs l s).ready = s.ready := rfl
@[simp] theorem driveCs_degraded (l : CsLevel) (s : State) : (driveCs l s).degraded = s.degraded := rfl
@[simp] theorem driveCs_cs (l : CsLevel) (s : State) : (driveCs l s).cs = l := rfl
@[simp] theorem driveCs_busy (l : CsLevel) (s : State) : (driveCs l s).busy = s.busy := rfl
@[simp] theorem driveCs_result (l : CsLevel) (s : State) : (driveCs l s).result = s.result := rfl
@[simp] theorem driveCs_op (l : CsLevel) (s : State) : (driveCs l s).op = s.op := rfl
@[simp] theorem driveCs_sector (l : CsLevel) (s : State) : (driveCs l s).sector = s.sector := rfl
@[simp] theorem driveCs_count (l : CsLevel) (s : State) : (driveCs l s).count = s.count := rfl
@[simp] theorem driveCs_blk (l : CsLevel) (s : State) : (driveCs l s).blk = s.blk := rfl
@[simp] theorem driveCs_idx (l : CsLevel) (s : State) : (driveCs l s).idx = s.idx := rfl
@[simp] theorem driveCs_arg (l : CsLevel) (s : State) : (driveCs l s).arg = s.arg := rfl
@[simp] theorem driveCs_frame (l : CsLevel) (s : State) : (driveCs l s).frame = s.frame := rfl
@[simp] theorem driveCs_r1 (l : CsLevel) (s : State) : (driveCs l s).r1 = s.r1 := rfl
@[simp] theorem driveCs_trailing (l : CsLevel) (s : State) : (driveCs l s).trailing = s.trailing := rfl
@[simp] theorem driveCs_dresp (l : CsLevel) (s : State) : (driveCs l s).dresp = s.dresp := rfl
@[simp] theorem driveCs_csd (l : CsLevel) (s : State) : (driveCs l s).csd = s.csd := rfl
@[simp] theorem driveCs_pollCnt (l : CsLevel) (s : State) : (driveCs l s).pollCnt = s.pollCnt := rfl
@[simp] theorem driveCs_path (l : CsLevel) (s : State) : (driveCs l s).path = s.path := rfl
@[simp] theorem driveCs_phase (l : CsLevel) (s : State) : (driveCs l s).phase = s.phase := rfl
@[simp] theorem driveCs_cnt (l : CsLevel) (s : State) : (driveCs l s).cnt = s.cnt := rfl
@[simp] theorem driveCs_ms (l : CsLevel) (s : State) : (driveCs l s).ms = s.ms := rfl
@[simp] theorem driveCs_hostbuf (l : CsLevel) (s : State) : (driveCs l s).hostbuf = s.hostbuf := rfl
@[simp] theorem driveCs_earlier (l : CsLevel) (s : State) : (driveCs l s).earlier = s.earlier := rfl
@[simp] theorem driveCs_pos (l : CsLevel) (s : State) : (driveCs l s).pos = s.pos := rfl
@[simp] theorem driveCs_r55 (l : CsLevel) (s : State) : (driveCs l s).r55 = s.r55 := rfl
@[simp] theorem driveCs_host (l : CsLevel) (s : State) : (driveCs l s).host = s.host := rfl
@[simp] theorem driveCs_card (l : CsLevel) (s : State) : (driveCs l s).card = s.card := rfl
@[simp] theorem driveCs_sched (l : CsLevel) (s : State) : (driveCs l s).sched = s.sched := rfl
@[simp] theorem driveCs_trace (l : CsLevel) (s : State) : (driveCs l s).trace = .cs l :: s.trace := rfl

/-! `driveClk` -/
@[simp] theorem driveClk_cfg (t : Tier) (s : State) : (driveClk t s).cfg = s.cfg := rfl
@[simp] theorem driveClk_version (t : Tier) (s : State) : (driveClk t s).version = s.version := rfl
@[simp] theorem driveClk_clkTier (t : Tier) (s : State) : (driveClk t s).clkTier = t := rfl
@[simp] theorem driveClk_lastStatus (t : Tier) (s : State) : (driveClk t s).lastStatus = s.lastStatus := rfl
@[simp] theorem driveClk_fail (t : Tier) (s : State) : (driveClk t s).fail = s.fail := rfl
@[simp] theorem driveClk_ready (t : Tier) (s : State) : (driveClk t s).ready = s.ready := rfl
@[simp] theorem driveClk_degraded (t : Tier) (s : State) : (driveClk t s).degraded = s.degraded := rfl
@[simp] theorem driveClk_cs (t : Tier) (s : State) : (driveClk t s).cs = s.cs := rfl
@[simp] theorem driveClk_busy (t : Tier) (s : State) : (driveClk t s).busy = s.busy := rfl
@[simp] theorem driveClk_result (t : Tier) (s : State) : (driveClk t s).result = s.result := rfl
@[simp] theorem driveClk_op (t : Tier) (s : State) : (driveClk t s).op = s.op := rfl
@[simp] theorem driveClk_sector (t : Tier) (s : State) : (driveClk t s).sector = s.sector := rfl
@[simp] theorem driveClk_count (t : Tier) (s : State) : (driveClk t s).count = s.count := rfl
@[simp] theorem driveClk_blk (t : Tier) (s : State) : (driveClk t s).blk = s.blk := rfl
@[simp] theorem driveClk_idx (t : Tier) (s : State) : (driveClk t s).idx = s.idx := rfl
@[simp] theorem driveClk_arg (t : Tier) (s : State) : (driveClk t s).arg = s.arg := rfl
@[simp] theorem driveClk_frame (t : Tier) (s : State) : (driveClk t s).frame = s.frame := rfl
@[simp] theorem driveClk_r1 (t : Tier) (s : State) : (driveClk t s).r1 = s.r1 := rfl
@[simp] theorem driveClk_trailing (t : Tier) (s : State) : (driveClk t s).trailing = s.trailing := rfl
@[simp] theorem driveClk_dresp (t : Tier) (s : State) : (driveClk t s).dresp = s.dresp := rfl
@[simp] theorem driveClk_csd (t : Tier) (s : State) : (driveClk t s).csd = s.csd := rfl
@[simp] theorem driveClk_pollCnt (t : Tier) (s : State) : (driveClk t s).pollCnt = s.pollCnt := rfl
@[simp] theorem driveClk_path (t : Tier) (s : State) : (driveClk t s).path = s.path := rfl
@[simp] theorem driveClk_phase (t : Tier) (s : State) : (driveClk t s).phase = s.phase := rfl
@[simp] theorem driveClk_cnt (t : Tier) (s : State) : (driveClk t s).cnt = s.cnt := rfl
@[simp] theorem driveClk_ms (t : Tier) (s : State) : (driveClk t s).ms = s.ms := rfl
@[simp] theorem driveClk_hostbuf (t : Tier) (s : State) : (driveClk t s).hostbuf = s.hostbuf := rfl
@[simp] theorem driveClk_earlier (t : Tier) (s : State) : (driveClk t s).earlier = s.earlier := rfl
@[simp] theorem driveClk_pos (t : Tier) (s : State) : (driveClk t s).pos = s.pos := rfl
@[simp] theorem driveClk_r55 (t : Tier) (s : State) : (driveClk t s).r55 = s.r55 := rfl
@[simp] theorem driveClk_host (t : Tier) (s : State) : (driveClk t s).host = s.host := rfl
@[simp] theorem driveClk_card (t : Tier) (s : State) : (driveClk t s).card = s.card := rfl
@[simp] theorem driveClk_sched (t : Tier) (s : State) : (driveClk t s).sched = s.sched := rfl
@[simp] theorem driveClk_trace (t : Tier) (s : State) : (driveClk t s).trace = .clk t :: s.trace := rfl

/-! `loadCnt` -/
@[simp] theorem loadCnt_cfg (v : BitVec 16) (s : State) : (loadCnt v s).cfg = s.cfg := rfl
@[simp] theorem loadCnt_version (v : BitVec 16) (s : State) : (loadCnt v s).version = s.version := rfl
@[simp] theorem loadCnt_clkTier (v : BitVec 16) (s : State) : (loadCnt v s).clkTier = s.clkTier := rfl
@[simp] theorem loadCnt_lastStatus (v : BitVec 16) (s : State) : (loadCnt v s).lastStatus = s.lastStatus := rfl
@[simp] theorem loadCnt_fail (v : BitVec 16) (s : State) : (loadCnt v s).fail = s.fail := rfl
@[simp] theorem loadCnt_ready (v : BitVec 16) (s : State) : (loadCnt v s).ready = s.ready := rfl
@[simp] theorem loadCnt_degraded (v : BitVec 16) (s : State) : (loadCnt v s).degraded = s.degraded := rfl
@[simp] theorem loadCnt_cs (v : BitVec 16) (s : State) : (loadCnt v s).cs = s.cs := rfl
@[simp] theorem loadCnt_busy (v : BitVec 16) (s : State) : (loadCnt v s).busy = s.busy := rfl
@[simp] theorem loadCnt_result (v : BitVec 16) (s : State) : (loadCnt v s).result = s.result := rfl
@[simp] theorem loadCnt_op (v : BitVec 16) (s : State) : (loadCnt v s).op = s.op := rfl
@[simp] theorem loadCnt_sector (v : BitVec 16) (s : State) : (loadCnt v s).sector = s.sector := rfl
@[simp] theorem loadCnt_count (v : BitVec 16) (s : State) : (loadCnt v s).count = s.count := rfl
@[simp] theorem loadCnt_blk (v : BitVec 16) (s : State) : (loadCnt v s).blk = s.blk := rfl
@[simp] theorem loadCnt_idx (v : BitVec 16) (s : State) : (loadCnt v s).idx = s.idx := rfl
@[simp] theorem loadCnt_arg (v : BitVec 16) (s : State) : (loadCnt v s).arg = s.arg := rfl
@[simp] theorem loadCnt_frame (v : BitVec 16) (s : State) : (loadCnt v s).frame = s.frame := rfl
@[simp] theorem loadCnt_r1 (v : BitVec 16) (s : State) : (loadCnt v s).r1 = s.r1 := rfl
@[simp] theorem loadCnt_trailing (v : BitVec 16) (s : State) : (loadCnt v s).trailing = s.trailing := rfl
@[simp] theorem loadCnt_dresp (v : BitVec 16) (s : State) : (loadCnt v s).dresp = s.dresp := rfl
@[simp] theorem loadCnt_csd (v : BitVec 16) (s : State) : (loadCnt v s).csd = s.csd := rfl
@[simp] theorem loadCnt_pollCnt (v : BitVec 16) (s : State) : (loadCnt v s).pollCnt = s.pollCnt := rfl
@[simp] theorem loadCnt_path (v : BitVec 16) (s : State) : (loadCnt v s).path = s.path := rfl
@[simp] theorem loadCnt_phase (v : BitVec 16) (s : State) : (loadCnt v s).phase = s.phase := rfl
@[simp] theorem loadCnt_cnt (v : BitVec 16) (s : State) : (loadCnt v s).cnt = v := rfl
@[simp] theorem loadCnt_ms (v : BitVec 16) (s : State) : (loadCnt v s).ms = s.ms := rfl
@[simp] theorem loadCnt_hostbuf (v : BitVec 16) (s : State) : (loadCnt v s).hostbuf = s.hostbuf := rfl
@[simp] theorem loadCnt_earlier (v : BitVec 16) (s : State) : (loadCnt v s).earlier = s.earlier := rfl
@[simp] theorem loadCnt_pos (v : BitVec 16) (s : State) : (loadCnt v s).pos = s.pos := rfl
@[simp] theorem loadCnt_r55 (v : BitVec 16) (s : State) : (loadCnt v s).r55 = s.r55 := rfl
@[simp] theorem loadCnt_host (v : BitVec 16) (s : State) : (loadCnt v s).host = s.host := rfl
@[simp] theorem loadCnt_card (v : BitVec 16) (s : State) : (loadCnt v s).card = s.card := rfl
@[simp] theorem loadCnt_sched (v : BitVec 16) (s : State) : (loadCnt v s).sched = s.sched := rfl
@[simp] theorem loadCnt_trace (v : BitVec 16) (s : State) : (loadCnt v s).trace = s.trace := rfl

/-! `complete` -/
@[simp] theorem complete_cfg (f : Fail) (s : State) : (complete f s).cfg = s.cfg := rfl
@[simp] theorem complete_version (f : Fail) (s : State) : (complete f s).version = s.version := rfl
@[simp] theorem complete_clkTier (f : Fail) (s : State) : (complete f s).clkTier = s.clkTier := rfl
@[simp] theorem complete_lastStatus (f : Fail) (s : State) : (complete f s).lastStatus = statusOf f := rfl
@[simp] theorem complete_fail (f : Fail) (s : State) : (complete f s).fail = f := rfl
@[simp] theorem complete_ready (f : Fail) (s : State) : (complete f s).ready = s.ready := rfl
@[simp] theorem complete_degraded (f : Fail) (s : State) : (complete f s).degraded = s.degraded := rfl
@[simp] theorem complete_cs (f : Fail) (s : State) : (complete f s).cs = s.cs := rfl
@[simp] theorem complete_busy (f : Fail) (s : State) : (complete f s).busy = false := rfl
@[simp] theorem complete_result (f : Fail) (s : State) : (complete f s).result = s.result := rfl
@[simp] theorem complete_op (f : Fail) (s : State) : (complete f s).op = s.op := rfl
@[simp] theorem complete_sector (f : Fail) (s : State) : (complete f s).sector = s.sector := rfl
@[simp] theorem complete_count (f : Fail) (s : State) : (complete f s).count = s.count := rfl
@[simp] theorem complete_blk (f : Fail) (s : State) : (complete f s).blk = s.blk := rfl
@[simp] theorem complete_idx (f : Fail) (s : State) : (complete f s).idx = s.idx := rfl
@[simp] theorem complete_arg (f : Fail) (s : State) : (complete f s).arg = s.arg := rfl
@[simp] theorem complete_frame (f : Fail) (s : State) : (complete f s).frame = s.frame := rfl
@[simp] theorem complete_r1 (f : Fail) (s : State) : (complete f s).r1 = s.r1 := rfl
@[simp] theorem complete_trailing (f : Fail) (s : State) : (complete f s).trailing = s.trailing := rfl
@[simp] theorem complete_dresp (f : Fail) (s : State) : (complete f s).dresp = s.dresp := rfl
@[simp] theorem complete_csd (f : Fail) (s : State) : (complete f s).csd = s.csd := rfl
@[simp] theorem complete_pollCnt (f : Fail) (s : State) : (complete f s).pollCnt = s.pollCnt := rfl
@[simp] theorem complete_path (f : Fail) (s : State) : (complete f s).path = s.path := rfl
@[simp] theorem complete_phase (f : Fail) (s : State) : (complete f s).phase = .idle := rfl
@[simp] theorem complete_cnt (f : Fail) (s : State) : (complete f s).cnt = s.cnt := rfl
@[simp] theorem complete_ms (f : Fail) (s : State) : (complete f s).ms = s.ms := rfl
@[simp] theorem complete_hostbuf (f : Fail) (s : State) : (complete f s).hostbuf = s.hostbuf := rfl
@[simp] theorem complete_earlier (f : Fail) (s : State) : (complete f s).earlier = s.earlier := rfl
@[simp] theorem complete_pos (f : Fail) (s : State) : (complete f s).pos = .done := rfl
@[simp] theorem complete_r55 (f : Fail) (s : State) : (complete f s).r55 = s.r55 := rfl
@[simp] theorem complete_host (f : Fail) (s : State) : (complete f s).host = s.host := rfl
@[simp] theorem complete_card (f : Fail) (s : State) : (complete f s).card = s.card := rfl
@[simp] theorem complete_sched (f : Fail) (s : State) : (complete f s).sched = s.sched := rfl
@[simp] theorem complete_trace (f : Fail) (s : State) : (complete f s).trace = s.trace := rfl

/-! `refuse` -/
@[simp] theorem refuse_cfg (st : Status) (s : State) : (refuse st s).cfg = s.cfg := rfl
@[simp] theorem refuse_version (st : Status) (s : State) : (refuse st s).version = s.version := rfl
@[simp] theorem refuse_clkTier (st : Status) (s : State) : (refuse st s).clkTier = s.clkTier := rfl
@[simp] theorem refuse_lastStatus (st : Status) (s : State) : (refuse st s).lastStatus = st := rfl
@[simp] theorem refuse_fail (st : Status) (s : State) : (refuse st s).fail = .none := rfl
@[simp] theorem refuse_ready (st : Status) (s : State) : (refuse st s).ready = s.ready := rfl
@[simp] theorem refuse_degraded (st : Status) (s : State) : (refuse st s).degraded = s.degraded := rfl
@[simp] theorem refuse_cs (st : Status) (s : State) : (refuse st s).cs = s.cs := rfl
@[simp] theorem refuse_busy (st : Status) (s : State) : (refuse st s).busy = false := rfl
@[simp] theorem refuse_result (st : Status) (s : State) : (refuse st s).result = s.result := rfl
@[simp] theorem refuse_op (st : Status) (s : State) : (refuse st s).op = s.op := rfl
@[simp] theorem refuse_sector (st : Status) (s : State) : (refuse st s).sector = s.sector := rfl
@[simp] theorem refuse_count (st : Status) (s : State) : (refuse st s).count = s.count := rfl
@[simp] theorem refuse_blk (st : Status) (s : State) : (refuse st s).blk = s.blk := rfl
@[simp] theorem refuse_idx (st : Status) (s : State) : (refuse st s).idx = s.idx := rfl
@[simp] theorem refuse_arg (st : Status) (s : State) : (refuse st s).arg = s.arg := rfl
@[simp] theorem refuse_frame (st : Status) (s : State) : (refuse st s).frame = s.frame := rfl
@[simp] theorem refuse_r1 (st : Status) (s : State) : (refuse st s).r1 = s.r1 := rfl
@[simp] theorem refuse_trailing (st : Status) (s : State) : (refuse st s).trailing = s.trailing := rfl
@[simp] theorem refuse_dresp (st : Status) (s : State) : (refuse st s).dresp = s.dresp := rfl
@[simp] theorem refuse_csd (st : Status) (s : State) : (refuse st s).csd = s.csd := rfl
@[simp] theorem refuse_pollCnt (st : Status) (s : State) : (refuse st s).pollCnt = s.pollCnt := rfl
@[simp] theorem refuse_path (st : Status) (s : State) : (refuse st s).path = s.path := rfl
@[simp] theorem refuse_phase (st : Status) (s : State) : (refuse st s).phase = .idle := rfl
@[simp] theorem refuse_cnt (st : Status) (s : State) : (refuse st s).cnt = s.cnt := rfl
@[simp] theorem refuse_ms (st : Status) (s : State) : (refuse st s).ms = s.ms := rfl
@[simp] theorem refuse_hostbuf (st : Status) (s : State) : (refuse st s).hostbuf = s.hostbuf := rfl
@[simp] theorem refuse_earlier (st : Status) (s : State) : (refuse st s).earlier = s.earlier := rfl
@[simp] theorem refuse_pos (st : Status) (s : State) : (refuse st s).pos = .done := rfl
@[simp] theorem refuse_r55 (st : Status) (s : State) : (refuse st s).r55 = s.r55 := rfl
@[simp] theorem refuse_host (st : Status) (s : State) : (refuse st s).host = s.host := rfl
@[simp] theorem refuse_card (st : Status) (s : State) : (refuse st s).card = s.card := rfl
@[simp] theorem refuse_sched (st : Status) (s : State) : (refuse st s).sched = s.sched := rfl
@[simp] theorem refuse_trace (st : Status) (s : State) : (refuse st s).trace = s.trace := rfl

/-! `initFailureState` -/
@[simp] theorem initFailureState_cfg (s : State) : (initFailureState s).cfg = s.cfg := rfl
@[simp] theorem initFailureState_version (s : State) : (initFailureState s).version = .unknown := rfl
@[simp] theorem initFailureState_clkTier (s : State) : (initFailureState s).clkTier = s.clkTier := rfl
@[simp] theorem initFailureState_lastStatus (s : State) : (initFailureState s).lastStatus = s.lastStatus := rfl
@[simp] theorem initFailureState_fail (s : State) : (initFailureState s).fail = s.fail := rfl
@[simp] theorem initFailureState_ready (s : State) : (initFailureState s).ready = false := rfl
@[simp] theorem initFailureState_degraded (s : State) : (initFailureState s).degraded = s.degraded := rfl
@[simp] theorem initFailureState_cs (s : State) : (initFailureState s).cs = s.cs := rfl
@[simp] theorem initFailureState_busy (s : State) : (initFailureState s).busy = s.busy := rfl
@[simp] theorem initFailureState_result (s : State) : (initFailureState s).result = s.result := rfl
@[simp] theorem initFailureState_op (s : State) : (initFailureState s).op = s.op := rfl
@[simp] theorem initFailureState_sector (s : State) : (initFailureState s).sector = s.sector := rfl
@[simp] theorem initFailureState_count (s : State) : (initFailureState s).count = s.count := rfl
@[simp] theorem initFailureState_blk (s : State) : (initFailureState s).blk = s.blk := rfl
@[simp] theorem initFailureState_idx (s : State) : (initFailureState s).idx = s.idx := rfl
@[simp] theorem initFailureState_arg (s : State) : (initFailureState s).arg = s.arg := rfl
@[simp] theorem initFailureState_frame (s : State) : (initFailureState s).frame = s.frame := rfl
@[simp] theorem initFailureState_r1 (s : State) : (initFailureState s).r1 = s.r1 := rfl
@[simp] theorem initFailureState_trailing (s : State) : (initFailureState s).trailing = s.trailing := rfl
@[simp] theorem initFailureState_dresp (s : State) : (initFailureState s).dresp = s.dresp := rfl
@[simp] theorem initFailureState_csd (s : State) : (initFailureState s).csd = s.csd := rfl
@[simp] theorem initFailureState_pollCnt (s : State) : (initFailureState s).pollCnt = s.pollCnt := rfl
@[simp] theorem initFailureState_path (s : State) : (initFailureState s).path = s.path := rfl
@[simp] theorem initFailureState_phase (s : State) : (initFailureState s).phase = s.phase := rfl
@[simp] theorem initFailureState_cnt (s : State) : (initFailureState s).cnt = s.cnt := rfl
@[simp] theorem initFailureState_ms (s : State) : (initFailureState s).ms = s.ms := rfl
@[simp] theorem initFailureState_hostbuf (s : State) : (initFailureState s).hostbuf = s.hostbuf := rfl
@[simp] theorem initFailureState_earlier (s : State) : (initFailureState s).earlier = s.earlier := rfl
@[simp] theorem initFailureState_pos (s : State) : (initFailureState s).pos = s.pos := rfl
@[simp] theorem initFailureState_r55 (s : State) : (initFailureState s).r55 = s.r55 := rfl
@[simp] theorem initFailureState_host (s : State) : (initFailureState s).host = s.host := rfl
@[simp] theorem initFailureState_card (s : State) : (initFailureState s).card = s.card := rfl
@[simp] theorem initFailureState_sched (s : State) : (initFailureState s).sched = s.sched := rfl
@[simp] theorem initFailureState_trace (s : State) : (initFailureState s).trace = s.trace := rfl

/-! `exchanged` -/
@[simp] theorem exchanged_cfg (o i : Byte) (s : State) : (exchanged o i s).cfg = s.cfg := rfl
@[simp] theorem exchanged_version (o i : Byte) (s : State) : (exchanged o i s).version = s.version := rfl
@[simp] theorem exchanged_clkTier (o i : Byte) (s : State) : (exchanged o i s).clkTier = s.clkTier := rfl
@[simp] theorem exchanged_lastStatus (o i : Byte) (s : State) : (exchanged o i s).lastStatus = s.lastStatus := rfl
@[simp] theorem exchanged_fail (o i : Byte) (s : State) : (exchanged o i s).fail = s.fail := rfl
@[simp] theorem exchanged_ready (o i : Byte) (s : State) : (exchanged o i s).ready = s.ready := rfl
@[simp] theorem exchanged_degraded (o i : Byte) (s : State) : (exchanged o i s).degraded = s.degraded := rfl
@[simp] theorem exchanged_cs (o i : Byte) (s : State) : (exchanged o i s).cs = s.cs := rfl
@[simp] theorem exchanged_busy (o i : Byte) (s : State) : (exchanged o i s).busy = s.busy := rfl
@[simp] theorem exchanged_result (o i : Byte) (s : State) : (exchanged o i s).result = s.result := rfl
@[simp] theorem exchanged_op (o i : Byte) (s : State) : (exchanged o i s).op = s.op := rfl
@[simp] theorem exchanged_sector (o i : Byte) (s : State) : (exchanged o i s).sector = s.sector := rfl
@[simp] theorem exchanged_count (o i : Byte) (s : State) : (exchanged o i s).count = s.count := rfl
@[simp] theorem exchanged_blk (o i : Byte) (s : State) : (exchanged o i s).blk = s.blk := rfl
@[simp] theorem exchanged_idx (o i : Byte) (s : State) : (exchanged o i s).idx = s.idx := rfl
@[simp] theorem exchanged_arg (o i : Byte) (s : State) : (exchanged o i s).arg = s.arg := rfl
@[simp] theorem exchanged_frame (o i : Byte) (s : State) : (exchanged o i s).frame = s.frame := rfl
@[simp] theorem exchanged_r1 (o i : Byte) (s : State) : (exchanged o i s).r1 = s.r1 := rfl
@[simp] theorem exchanged_trailing (o i : Byte) (s : State) : (exchanged o i s).trailing = s.trailing := rfl
@[simp] theorem exchanged_dresp (o i : Byte) (s : State) : (exchanged o i s).dresp = s.dresp := rfl
@[simp] theorem exchanged_csd (o i : Byte) (s : State) : (exchanged o i s).csd = s.csd := rfl
@[simp] theorem exchanged_pollCnt (o i : Byte) (s : State) : (exchanged o i s).pollCnt = s.pollCnt := rfl
@[simp] theorem exchanged_path (o i : Byte) (s : State) : (exchanged o i s).path = s.path := rfl
@[simp] theorem exchanged_phase (o i : Byte) (s : State) : (exchanged o i s).phase = s.phase := rfl
@[simp] theorem exchanged_cnt (o i : Byte) (s : State) : (exchanged o i s).cnt = s.cnt := rfl
@[simp] theorem exchanged_ms (o i : Byte) (s : State) : (exchanged o i s).ms = s.ms := rfl
@[simp] theorem exchanged_hostbuf (o i : Byte) (s : State) : (exchanged o i s).hostbuf = s.hostbuf := rfl
@[simp] theorem exchanged_earlier (o i : Byte) (s : State) : (exchanged o i s).earlier = s.earlier := rfl
@[simp] theorem exchanged_pos (o i : Byte) (s : State) : (exchanged o i s).pos = s.pos := rfl
@[simp] theorem exchanged_r55 (o i : Byte) (s : State) : (exchanged o i s).r55 = s.r55 := rfl
@[simp] theorem exchanged_host (o i : Byte) (s : State) : (exchanged o i s).host = s.host := rfl
@[simp] theorem exchanged_card (o i : Byte) (s : State) : (exchanged o i s).card = s.card.tail := rfl
@[simp] theorem exchanged_sched (o i : Byte) (s : State) : (exchanged o i s).sched = s.sched := rfl
@[simp] theorem exchanged_trace (o i : Byte) (s : State) : (exchanged o i s).trace = .x o i :: s.trace := rfl

/-! `deselect` -/
@[simp] theorem deselect_cfg (a : After) (s : State) : (deselect a s).cfg = s.cfg := rfl
@[simp] theorem deselect_version (a : After) (s : State) : (deselect a s).version = s.version := rfl
@[simp] theorem deselect_clkTier (a : After) (s : State) : (deselect a s).clkTier = s.clkTier := rfl
@[simp] theorem deselect_lastStatus (a : After) (s : State) : (deselect a s).lastStatus = s.lastStatus := rfl
@[simp] theorem deselect_fail (a : After) (s : State) : (deselect a s).fail = s.fail := rfl
@[simp] theorem deselect_ready (a : After) (s : State) : (deselect a s).ready = s.ready := rfl
@[simp] theorem deselect_degraded (a : After) (s : State) : (deselect a s).degraded = s.degraded := rfl
@[simp] theorem deselect_cs (a : After) (s : State) : (deselect a s).cs = s.cs := rfl
@[simp] theorem deselect_busy (a : After) (s : State) : (deselect a s).busy = s.busy := rfl
@[simp] theorem deselect_result (a : After) (s : State) : (deselect a s).result = s.result := rfl
@[simp] theorem deselect_op (a : After) (s : State) : (deselect a s).op = s.op := rfl
@[simp] theorem deselect_sector (a : After) (s : State) : (deselect a s).sector = s.sector := rfl
@[simp] theorem deselect_count (a : After) (s : State) : (deselect a s).count = s.count := rfl
@[simp] theorem deselect_blk (a : After) (s : State) : (deselect a s).blk = s.blk := rfl
@[simp] theorem deselect_idx (a : After) (s : State) : (deselect a s).idx = s.idx := rfl
@[simp] theorem deselect_arg (a : After) (s : State) : (deselect a s).arg = s.arg := rfl
@[simp] theorem deselect_frame (a : After) (s : State) : (deselect a s).frame = s.frame := rfl
@[simp] theorem deselect_r1 (a : After) (s : State) : (deselect a s).r1 = s.r1 := rfl
@[simp] theorem deselect_trailing (a : After) (s : State) : (deselect a s).trailing = s.trailing := rfl
@[simp] theorem deselect_dresp (a : After) (s : State) : (deselect a s).dresp = s.dresp := rfl
@[simp] theorem deselect_csd (a : After) (s : State) : (deselect a s).csd = s.csd := rfl
@[simp] theorem deselect_pollCnt (a : After) (s : State) : (deselect a s).pollCnt = s.pollCnt := rfl
@[simp] theorem deselect_path (a : After) (s : State) : (deselect a s).path = s.path := rfl
@[simp] theorem deselect_phase (a : After) (s : State) : (deselect a s).phase = s.phase := rfl
@[simp] theorem deselect_cnt (a : After) (s : State) : (deselect a s).cnt = s.cnt := rfl
@[simp] theorem deselect_ms (a : After) (s : State) : (deselect a s).ms = s.ms := rfl
@[simp] theorem deselect_hostbuf (a : After) (s : State) : (deselect a s).hostbuf = s.hostbuf := rfl
@[simp] theorem deselect_earlier (a : After) (s : State) : (deselect a s).earlier = s.earlier := rfl
@[simp] theorem deselect_pos (a : After) (s : State) : (deselect a s).pos = .deselect a := rfl
@[simp] theorem deselect_r55 (a : After) (s : State) : (deselect a s).r55 = s.r55 := rfl
@[simp] theorem deselect_host (a : After) (s : State) : (deselect a s).host = s.host := rfl
@[simp] theorem deselect_card (a : After) (s : State) : (deselect a s).card = s.card := rfl
@[simp] theorem deselect_sched (a : After) (s : State) : (deselect a s).sched = s.sched := rfl
@[simp] theorem deselect_trace (a : After) (s : State) : (deselect a s).trace = s.trace := rfl

/-! `scheduled` -/
@[simp] theorem scheduled_cfg (s : State) : (scheduled s).cfg = s.cfg := rfl
@[simp] theorem scheduled_version (s : State) : (scheduled s).version = s.version := rfl
@[simp] theorem scheduled_clkTier (s : State) : (scheduled s).clkTier = s.clkTier := rfl
@[simp] theorem scheduled_lastStatus (s : State) : (scheduled s).lastStatus = s.lastStatus := rfl
@[simp] theorem scheduled_fail (s : State) : (scheduled s).fail = s.fail := rfl
@[simp] theorem scheduled_ready (s : State) : (scheduled s).ready = s.ready := rfl
@[simp] theorem scheduled_degraded (s : State) : (scheduled s).degraded = s.degraded := rfl
@[simp] theorem scheduled_cs (s : State) : (scheduled s).cs = s.cs := rfl
@[simp] theorem scheduled_busy (s : State) : (scheduled s).busy = s.busy := rfl
@[simp] theorem scheduled_result (s : State) : (scheduled s).result = s.result := rfl
@[simp] theorem scheduled_op (s : State) : (scheduled s).op = s.op := rfl
@[simp] theorem scheduled_sector (s : State) : (scheduled s).sector = s.sector := rfl
@[simp] theorem scheduled_count (s : State) : (scheduled s).count = s.count := rfl
@[simp] theorem scheduled_blk (s : State) : (scheduled s).blk = s.blk := rfl
@[simp] theorem scheduled_idx (s : State) : (scheduled s).idx = s.idx := rfl
@[simp] theorem scheduled_arg (s : State) : (scheduled s).arg = s.arg := rfl
@[simp] theorem scheduled_frame (s : State) : (scheduled s).frame = s.frame := rfl
@[simp] theorem scheduled_r1 (s : State) : (scheduled s).r1 = s.r1 := rfl
@[simp] theorem scheduled_trailing (s : State) : (scheduled s).trailing = s.trailing := rfl
@[simp] theorem scheduled_dresp (s : State) : (scheduled s).dresp = s.dresp := rfl
@[simp] theorem scheduled_csd (s : State) : (scheduled s).csd = s.csd := rfl
@[simp] theorem scheduled_pollCnt (s : State) : (scheduled s).pollCnt = s.pollCnt := rfl
@[simp] theorem scheduled_path (s : State) : (scheduled s).path = s.path := rfl
@[simp] theorem scheduled_phase (s : State) : (scheduled s).phase = s.phase := rfl
@[simp] theorem scheduled_cnt (s : State) : (scheduled s).cnt = s.cnt := rfl
@[simp] theorem scheduled_ms (s : State) : (scheduled s).ms = s.ms := rfl
@[simp] theorem scheduled_hostbuf (s : State) : (scheduled s).hostbuf = s.hostbuf := rfl
@[simp] theorem scheduled_earlier (s : State) : (scheduled s).earlier = s.earlier := rfl
@[simp] theorem scheduled_pos (s : State) : (scheduled s).pos = s.pos := rfl
@[simp] theorem scheduled_r55 (s : State) : (scheduled s).r55 = s.r55 := rfl
@[simp] theorem scheduled_host (s : State) : (scheduled s).host = s.host := rfl
@[simp] theorem scheduled_card (s : State) : (scheduled s).card = s.card := rfl
@[simp] theorem scheduled_sched (s : State) : (scheduled s).sched = s.sched.tail := rfl
@[simp] theorem scheduled_trace (s : State) : (scheduled s).trace = s.trace := rfl

/-! `issue` -/
@[simp] theorem issue_cfg (c : Cmd) (s : State) (a : Word) : (issue c s a).cfg = s.cfg := rfl
@[simp] theorem issue_version (c : Cmd) (s : State) (a : Word) : (issue c s a).version = s.version := rfl
@[simp] theorem issue_clkTier (c : Cmd) (s : State) (a : Word) : (issue c s a).clkTier = s.clkTier := rfl
@[simp] theorem issue_lastStatus (c : Cmd) (s : State) (a : Word) : (issue c s a).lastStatus = s.lastStatus := rfl
@[simp] theorem issue_fail (c : Cmd) (s : State) (a : Word) : (issue c s a).fail = s.fail := rfl
@[simp] theorem issue_ready (c : Cmd) (s : State) (a : Word) : (issue c s a).ready = s.ready := rfl
@[simp] theorem issue_degraded (c : Cmd) (s : State) (a : Word) : (issue c s a).degraded = s.degraded := rfl
@[simp] theorem issue_cs (c : Cmd) (s : State) (a : Word) : (issue c s a).cs = s.cs := rfl
@[simp] theorem issue_busy (c : Cmd) (s : State) (a : Word) : (issue c s a).busy = s.busy := rfl
@[simp] theorem issue_result (c : Cmd) (s : State) (a : Word) : (issue c s a).result = s.result := rfl
@[simp] theorem issue_op (c : Cmd) (s : State) (a : Word) : (issue c s a).op = s.op := rfl
@[simp] theorem issue_sector (c : Cmd) (s : State) (a : Word) : (issue c s a).sector = s.sector := rfl
@[simp] theorem issue_count (c : Cmd) (s : State) (a : Word) : (issue c s a).count = s.count := rfl
@[simp] theorem issue_blk (c : Cmd) (s : State) (a : Word) : (issue c s a).blk = s.blk := rfl
@[simp] theorem issue_idx (c : Cmd) (s : State) (a : Word) : (issue c s a).idx = s.idx := rfl
@[simp] theorem issue_arg (c : Cmd) (s : State) (a : Word) : (issue c s a).arg = a := rfl
@[simp] theorem issue_frame (c : Cmd) (s : State) (a : Word) : (issue c s a).frame = s.frame := rfl
@[simp] theorem issue_r1 (c : Cmd) (s : State) (a : Word) : (issue c s a).r1 = s.r1 := rfl
@[simp] theorem issue_trailing (c : Cmd) (s : State) (a : Word) : (issue c s a).trailing = s.trailing := rfl
@[simp] theorem issue_dresp (c : Cmd) (s : State) (a : Word) : (issue c s a).dresp = s.dresp := rfl
@[simp] theorem issue_csd (c : Cmd) (s : State) (a : Word) : (issue c s a).csd = s.csd := rfl
@[simp] theorem issue_pollCnt (c : Cmd) (s : State) (a : Word) : (issue c s a).pollCnt = s.pollCnt := rfl
@[simp] theorem issue_path (c : Cmd) (s : State) (a : Word) : (issue c s a).path = s.path := rfl
@[simp] theorem issue_phase (c : Cmd) (s : State) (a : Word) : (issue c s a).phase = s.phase := rfl
@[simp] theorem issue_cnt (c : Cmd) (s : State) (a : Word) : (issue c s a).cnt = s.cnt := rfl
@[simp] theorem issue_ms (c : Cmd) (s : State) (a : Word) : (issue c s a).ms = s.ms := rfl
@[simp] theorem issue_hostbuf (c : Cmd) (s : State) (a : Word) : (issue c s a).hostbuf = s.hostbuf := rfl
@[simp] theorem issue_earlier (c : Cmd) (s : State) (a : Word) : (issue c s a).earlier = s.earlier := rfl
@[simp] theorem issue_pos (c : Cmd) (s : State) (a : Word) : (issue c s a).pos = .issue c := rfl
@[simp] theorem issue_r55 (c : Cmd) (s : State) (a : Word) : (issue c s a).r55 = s.r55 := rfl
@[simp] theorem issue_host (c : Cmd) (s : State) (a : Word) : (issue c s a).host = s.host := rfl
@[simp] theorem issue_card (c : Cmd) (s : State) (a : Word) : (issue c s a).card = s.card := rfl
@[simp] theorem issue_sched (c : Cmd) (s : State) (a : Word) : (issue c s a).sched = s.sched := rfl
@[simp] theorem issue_trace (c : Cmd) (s : State) (a : Word) : (issue c s a).trace = s.trace := rfl

end Sys2Proof.Machine
end

