-- ==== Sys2Proof/Laws/Step.lean ====
section
/-! SUPPORT. What a step can do, said once: the exchange, the three ways an exchange of the idle byte goes at every position, the step's
movers, and runs. -/

namespace Sys2Proof.Machine

/-! ## The byte exchange -/

theorem exchange_wait {o : Byte} {k : Byte → State → Result} {s : State} (h : s.card = []) : exchange o k s = .next s := by
  simp [exchange, h]

theorem exchange_byte {o i : Byte} {k : Byte → State → Result} {s : State} {rest : List Answer} (h : s.card = .byte i :: rest) :
    exchange o k s = k i (exchanged o i s) := by
  simp [exchange, h]

theorem exchange_timeout {o : Byte} {k : Byte → State → Result} {s : State} {rest : List Answer} (h : s.card = .timeout :: rest) :
    exchange o k s = .next (timedOut o s) := by
  simp [exchange, h]

/-- An exchange answers next in one of three ways. -/
theorem exchange_cases {o : Byte} {k : Byte → State → Result} {s t : State} (h : exchange o k s = .next t) :
    (s.card = [] ∧ t = s) ∨ (∃ i rest, s.card = .byte i :: rest ∧ k i (exchanged o i s) = .next t) ∨
    ∃ rest, s.card = .timeout :: rest ∧ t = timedOut o s := by
  unfold exchange at h
  split at h
  · exact .inl ⟨‹_›, by cases h; rfl⟩
  · exact .inr (.inl ⟨_, _, ‹_›, h⟩)
  · exact .inr (.inr ⟨_, ‹_›, by cases h; rfl⟩)

theorem withinBuffer_inside {s : State} {k : Nat → Result} (h : bufOffset s.cfg s.blk s.idx < bufSize s.cfg s.count) :
    withinBuffer s k = k (bufOffset s.cfg s.blk s.idx) := by
  simp [withinBuffer, h]

theorem withinBuffer_next {s t : State} {k : Nat → Result} (h : withinBuffer s k = .next t) :
    bufOffset s.cfg s.blk s.idx < bufSize s.cfg s.count ∧ k (bufOffset s.cfg s.blk s.idx) = .next t := by
  simp only [withinBuffer] at h
  split at h
  · exact ⟨‹_›, h⟩
  · cases h

/-- A byte of a block below `count` is inside the buffer (20 R51). -/
theorem bufOffset_lt {c : Config} {blk count : Word} {idx : BitVec 10} (hc : c.blockLen = 512) (hb : blk < count)
    (hi : idx.toNat < 512) : bufOffset c blk idx < bufSize c count := by
  have : blk.toNat < count.toNat := hb
  simp only [bufOffset, bufSize, hc]
  omega

/-! ## IDLE_BYTE at every position that sends it -/

theorem execIdleByte_eq {s : State} (h : sendsIdle s.pos = true) : execIdleByte s = exchange s.cfg.idleByte idleExchanged s := by
  unfold execIdleByte
  split <;> simp_all [sendsIdle]

theorem exec_idleByte_byte {s : State} {i : Byte} {rest : List Answer} (h : sendsIdle s.pos = true)
    (hc : s.card = .byte i :: rest) : exec .idleByte s = idleExchanged i (exchanged s.cfg.idleByte i s) := by
  rw [exec, execIdleByte_eq h, exchange_byte hc]

theorem exec_idleByte_timeout {s : State} {rest : List Answer} (h : sendsIdle s.pos = true) (hc : s.card = .timeout :: rest) :
    exec .idleByte s = .next (timedOut s.cfg.idleByte s) := by
  rw [exec, execIdleByte_eq h, exchange_timeout hc]

theorem exec_idleByte_wait {s : State} (h : sendsIdle s.pos = true) (hc : s.card = []) : exec .idleByte s = .next s := by
  rw [exec, execIdleByte_eq h, exchange_wait hc]

/-- At a position that sends the idle byte, the step with the answer `i` is the exchange and what the position does with `i`,
whichever row of the table the byte is. -/
theorem blockStep_byte {s : State} {i : Byte} {rest : List Answer} (h : sendsIdle s.pos = true)
    (hc : s.card = .byte i :: rest) : blockStep s = idleExchanged i (exchanged s.cfg.idleByte i s) := by
  have key := exec_idleByte_byte h hc
  cases hp : s.pos <;> simp only [hp, sendsIdle, Bool.false_eq_true] at h <;> simp only [blockStep, fetch, hp] <;> try exact key
  case poll c =>
    simp only [fetchPoll, hc, decodeR1]
    split <;> simp [exec, execR1Valid, execR1NotReady, pollReceives, hp, idleExchanged, received]
  case tokenWait =>
    simp only [fetchToken, hc]
    split
    · rename_i hi
      simp [exec, execTokenStart, hp, idleExchanged, received, hi]
    · exact key
  case dresp =>
    simp only [fetchDresp, hc]
    split
    · rename_i j hj
      simp only [decodeDresp] at hj
      repeat' split at hj
      all_goals cases hj
      all_goals simp [exec, execDrespAccept, execDrespCrcErr, execDrespWriteErr, drespReceives, hp, idleExchanged, received]
    · exact key

theorem blockStep_timeout {s : State} {rest : List Answer} (h : sendsIdle s.pos = true) (hc : s.card = .timeout :: rest) :
    blockStep s = .next (timedOut s.cfg.idleByte s) := by
  have key := exec_idleByte_timeout h hc
  cases hp : s.pos <;> simp only [hp, sendsIdle, Bool.false_eq_true] at h <;>
    simp only [blockStep, fetch, hp, fetchPoll, fetchToken, fetchDresp, hc] <;> exact key

theorem blockStep_wait {s : State} (h : sendsIdle s.pos = true) (hc : s.card = []) : blockStep s = .next s := by
  have key := exec_idleByte_wait h hc
  cases hp : s.pos <;> simp only [hp, sendsIdle, Bool.false_eq_true] at h <;>
    simp only [blockStep, fetch, hp, fetchPoll, fetchToken, fetchDresp, hc] <;> exact key

/-! ## The other positions -/

theorem blockStep_issue {s : State} {c : Cmd} (h : s.pos = .issue c) : blockStep s = exec (c.toInstr s.arg) s := by
  simp [blockStep, fetch, h]

/-- The meaning of every command row, at its place. -/
theorem exec_command {s : State} {c : Cmd} (a : Word) (h : s.pos = .issue c) :
    exec (c.toInstr a) s = .next { driveCs .asserted { s with arg := c.argument s.cfg a } with
      frame := frameOf s.cfg (c.index s.cfg) (c.argument s.cfg a), pos := .frame c 0 } := by
  cases c <;>
    simp [Cmd.toInstr, exec, execCmd0, execCmd8, execCmd55, execAcmd41Hcs, execAcmd41Legacy, execCmd58, execCmd1, execCmd16,
      execCmd17, execCmd24, execCmd9, sendCommand, h, Cmd.argument]

theorem blockStep_frame {s : State} {c : Cmd} {k : Fin 6} (h : s.pos = .frame c k) : blockStep s = sendFrameByte c k s := by
  simp [blockStep, fetch, h, sequence]

theorem blockStep_leadToken {s : State} (h : s.pos = .leadToken) :
    blockStep s = exchange s.cfg.tokenStart (fun _ t => .next (beginSendData t)) s := by
  simp [blockStep, fetch, h, exec, execTokenStart]

theorem blockStep_sendData {s : State} (h : s.pos = .sendData) : blockStep s = sendDataByte s := by
  simp [blockStep, fetch, h, sequence]

theorem blockStep_deselect {s : State} {a : After} (h : s.pos = .deselect a) :
    blockStep s = .next { driveCs .deasserted s with pos := .release a } := by
  simp [blockStep, fetch, h, sequence]

theorem blockStep_abort {s : State} (h : s.pos = .abort) :
    blockStep s = .next (raiseFail .busTimeout (driveCs .deasserted s)) := by
  simp [blockStep, fetch, h, sequence]

theorem blockStep_clkSlow {s : State} (h : s.pos = .clkSlow) : blockStep s = .next (clockDown s) := by
  simp [blockStep, fetch, h, sequence]

theorem blockStep_csForce {s : State} (h : s.pos = .csForce) :
    blockStep s = .next { driveCs .deasserted s with pos := .powerOn 0 } := by
  simp [blockStep, fetch, h, sequence]

theorem blockStep_clkFast {s : State} (h : s.pos = .clkFast) : blockStep s = .next (finishInit (driveClk .fast s)) := by
  simp [blockStep, fetch, h, sequence]

theorem blockStep_done {s : State} (h : s.pos = .done) : blockStep s = .next (emitDone s) := by
  simp [blockStep, fetch, h, sequence]

theorem blockStep_start {s : State} {op : BitVec 3} {sector count : Word} {buffer : List Byte} {rest : List HostMove}
    (h : s.pos = .idle) (hh : s.host = .start op sector count buffer :: rest) :
    blockStep s = exec (decodeOp op sector count) (presented op count buffer { s with host := rest }) := by
  simp [blockStep, fetch, h, hh]

theorem blockStep_poke {s : State} {off : Nat} {b : Byte} {rest : List HostMove} (h : s.pos = .idle)
    (hh : s.host = .poke off b :: rest) :
    blockStep s = .next { s with host := rest, hostbuf := s.hostbuf.write off b } := by
  simp [blockStep, fetch, h, hh, sequence]

theorem blockStep_hardwareReset {s : State} {rest : List HostMove} (h : s.pos = .idle) (hh : s.host = .reset :: rest) :
    blockStep s = .next (hardwareReset { s with host := rest }) := by
  simp [blockStep, fetch, h, hh, sequence]

theorem blockStep_idle {s : State} (h : s.pos = .idle) (hh : s.host = []) : blockStep s = .next s := by
  simp [blockStep, fetch, h, hh, sequence]

/-! ## The step and its movers -/

theorem step_tick {s : State} (hc : s.cfg.ok = true) (h : tickMoves s = true) : step s = .next (tick (scheduled s)) := by
  simp [step, hc, h]

theorem step_block {s : State} (hc : s.cfg.ok = true) (h : tickMoves s = false) : step s = blockStep (scheduled s) := by
  simp [step, hc, h]

/-- Everything a step that answers next can be. -/
theorem step_cases {s t : State} (h : step s = .next t) :
    s.cfg.ok = true ∧ ((tickMoves s = true ∧ t = tick (scheduled s)) ∨
      (tickMoves s = false ∧ blockStep (scheduled s) = .next t)) := by
  unfold step at h
  split at h
  · refine ⟨‹_›, ?_⟩
    split at h
    · exact .inl ⟨‹_›, by cases h; rfl⟩
    · rename_i hm
      exact .inr ⟨Bool.not_eq_true _ ▸ hm, h⟩
  · cases h

theorem tickMoves_of_noTick {s : State} {k : Nat} (h : noTick (k + 1) s) : tickMoves s = false := by
  unfold tickMoves
  cases hs : s.sched with
  | nil => rfl
  | cons m ms =>
    have : m = .block := h m (by simp [hs])
    simp [this]

theorem noTick_scheduled {s : State} {k : Nat} (h : noTick (k + 1) s) : noTick k (scheduled s) := by
  intro m hm
  apply h
  cases hs : s.sched with
  | nil => simp [scheduled, hs] at hm
  | cons x xs => simp [scheduled, hs] at hm ⊢; exact .inr hm

theorem scheduled_eq (s : State) : scheduled s = { s with sched := s.sched.drop 1 } := by
  cases h : s.sched <;> simp [scheduled, h]

/-- The block's single step, no tick falling on it. -/
theorem step_noTick {s : State} (hc : s.cfg.ok = true) (hn : noTick 1 s) :
    step s = blockStep { s with sched := s.sched.drop 1 } := by
  rw [step_block hc (tickMoves_of_noTick hn), scheduled_eq]

/-! ## Runs -/

theorem run_zero (s : State) : run 0 s = .next s := rfl

theorem run_succ {k : Nat} {s t : State} (h : step s = .next t) : run (k + 1) s = run k t := by
  show Host.Core.run Sys2Proof.core (k + 1) s = _
  simp only [Host.Core.run]
  rw [show Sys2Proof.core.step s = .next t from h]
  rfl

theorem run_one {s t : State} (h : step s = .next t) : run 1 s = .next t := by rw [run_succ h, run_zero]

theorem run_add {j k : Nat} {s t : State} (h : run j s = .next t) : run (j + k) s = run k t := by
  induction j generalizing s with
  | zero => simp only [run_zero, Host.Outcome.next.injEq] at h; simp [h]
  | succ j ih =>
    cases hs : step s with
    | next u =>
      rw [run_succ hs] at h
      rw [Nat.succ_add, run_succ hs, ih h]
    | fault r =>
      have : run (j + 1) s = .fault r := by
        show Host.Core.run Sys2Proof.core (j + 1) s = _
        simp only [Host.Core.run]
        rw [show Sys2Proof.core.step s = .fault r from hs]
        rfl
      rw [this] at h; cases h
    | refused r =>
      have : run (j + 1) s = .refused r := by
        show Host.Core.run Sys2Proof.core (j + 1) s = _
        simp only [Host.Core.run]
        rw [show Sys2Proof.core.step s = .refused r from hs]
        rfl
      rw [this] at h; cases h

/-- A block step inside a run. -/
theorem run_block {k : Nat} {s t : State} (hc : s.cfg.ok = true) (hn : noTick (k + 1) s) (h : blockStep (scheduled s) = .next t) :
    run (k + 1) s = run k t :=
  run_succ (by rw [step_block hc (tickMoves_of_noTick hn), h])

end Sys2Proof.Machine
end

