-- ==== Sys2Proof/Laws/Ops.lean ====
section
/-! SUPPORT. One lemma per shared operation: taking a failure, the start of an operation, the tail after a release byte and after any
exchange of the idle byte, each said once with its frame. -/

namespace Sys2Proof.Machine

/-! ## The host port -/

theorem hostRead_idle {s : State} (h : s.pos = .idle) :
    hostRead s = some {
      lastStatus := s.lastStatus.code, fail := s.fail.code, blk := s.blk, r1 := s.r1, trailing := s.trailing,
      dresp := s.dresp, hostbuf := s.hostbuf } := if_pos h

theorem hostRead_inFlight {s : State} (h : s.pos ≠ .idle) : hostRead s = none := if_neg h

/-! ## Failures -/

theorem raiseFail_init {s : State} {f : Fail} (h : s.op = .init) : raiseFail f s = initFailed (statusOf f) f s := by
  simp [raiseFail, h, complete, initFailureState, initFailed, ended]

theorem raiseFail_other {s : State} {f : Fail} (h : s.op ≠ .init) : raiseFail f s = ended (statusOf f) f s := by
  simp [raiseFail, h, complete, ended]

/-- What a failure writes, and nothing else. -/
theorem raiseFail_frame (f : Fail) (s : State) : raiseFail f s = { s with
    version := (raiseFail f s).version, ready := (raiseFail f s).ready, lastStatus := statusOf f, fail := f, phase := .idle,
    busy := false, pos := .done } := by
  unfold raiseFail
  split <;> rfl

theorem busTimeout_selected {s : State} (h : s.cs = .asserted) : busTimeout s = { s with pos := .abort } := by
  simp [busTimeout, h]

theorem busTimeout_released {s : State} (h : s.cs = .deasserted) : busTimeout s = raiseFail .busTimeout s := by
  simp [busTimeout, h]

/-- What a bus timeout writes, inside a span and outside one, and nothing else. -/
theorem busTimeout_frame (s : State) : busTimeout s = { s with
    version := (busTimeout s).version, ready := (busTimeout s).ready, lastStatus := (busTimeout s).lastStatus,
    fail := (busTimeout s).fail, phase := (busTimeout s).phase, busy := (busTimeout s).busy, pos := (busTimeout s).pos } := by
  unfold busTimeout
  split
  · rfl
  · exact raiseFail_frame _ s

/-- What an exchange that times out writes: the answer used up, its event, and what the bus timeout writes. -/
theorem timedOut_frame (o : Byte) (s : State) : timedOut o s = { s with
    version := (timedOut o s).version, ready := (timedOut o s).ready, lastStatus := (timedOut o s).lastStatus,
    fail := (timedOut o s).fail, phase := (timedOut o s).phase, busy := (timedOut o s).busy, pos := (timedOut o s).pos,
    card := s.card.tail, trace := .xt o :: s.trace } :=
  busTimeout_frame (emit (.xt o) { s with card := s.card.tail })

/-! ## The start of an operation -/

/-- Everything taking a START's buffer from the host can do: the host buffer and the buffers before it, and nothing else. -/
theorem presented_frame (op : BitVec 3) (count : Word) (buffer : List Byte) (s : State) :
    presented op count buffer s =
      { s with hostbuf := (presented op count buffer s).hostbuf, earlier := (presented op count buffer s).earlier } := by
  unfold presented
  split <;> rfl

/-- A READ or a WRITE finds the argument's first `count * 512` bytes in the host buffer (20 R51). -/
theorem presented_read {op : BitVec 3} (h : op = 1 ∨ op = 2) (count : Word) (buffer : List Byte) (s : State) (off : Nat) :
    (presented op count buffer s).hostbuf.read off =
      (buffer.take (bufSize s.cfg count)).getD off Memory.blank := by
  rw [presented, if_pos h]
  exact Memory.read_ofBytesAt _ off

/-- Any other operation has no buffer argument. -/
theorem presented_other {op : BitVec 3} (h1 : op ≠ 1) (h2 : op ≠ 2) (count : Word) (buffer : List Byte) (s : State) :
    presented op count buffer s = s :=
  if_neg (not_or.2 ⟨h1, h2⟩)

/-- The buffer presented is in canonical form. -/
theorem presented_wf {op : BitVec 3} {count : Word} {buffer : List Byte} {s : State} (h : Memory.wf s.hostbuf) :
    Memory.wf (presented op count buffer s).hostbuf := by
  unfold presented
  split
  · exact Memory.wf_ofBytesAt 0 _
  · exact h

theorem startOp_idle {o : Op} {sector count : Word} {body : State → State} {s : State} (h : s.pos = .idle) :
    startOp o sector count body s = .next (body (started o sector count s)) := by
  simp [startOp, h, started, emit]

theorem startOp_busy {o : Op} {sector count : Word} {body : State → State} {s : State} (h : s.pos ≠ .idle) :
    startOp o sector count body s = .refused .startWhileBusy := by
  simp [startOp, h]

theorem sessionOk_iff (s : State) : sessionOk s = true ↔ s.ready = true ∧ s.version ≠ .unknown := by
  simp [sessionOk]

/-- Admission, in the unbounded arithmetic of 44 R204. -/
theorem parametersOk_iff (v : Version) (sector count : Word) :
    parametersOk v sector count = true ↔ 1 ≤ count.toNat ∧ sector.toNat + count.toNat ≤ maxSector v + 1 := by
  simp only [parametersOk, Bool.and_eq_true, bne_iff_ne, decide_eq_true_eq]
  omega

/-! ## The tails -/

/-- The forced block length writes the phase, the position and, where it calls its command, the argument. -/
theorem beginForceBlockLength_frame (s : State) : beginForceBlockLength s = { s with
    phase := (beginForceBlockLength s).phase, pos := (beginForceBlockLength s).pos, arg := (beginForceBlockLength s).arg } := by
  unfold beginForceBlockLength
  dsimp only
  split <;> rfl

/-- What the tail after a release byte can write: the session fields a failure or a classification writes, the outcome, the block count, the
argument of the next command, the countdown, the path and the position. Everything else is as before. -/
theorem afterRelease_frame (a : After) (s : State) : afterRelease a s = { s with
    version := (afterRelease a s).version, lastStatus := (afterRelease a s).lastStatus, fail := (afterRelease a s).fail,
    ready := (afterRelease a s).ready, degraded := (afterRelease a s).degraded, busy := (afterRelease a s).busy,
    result := (afterRelease a s).result, blk := (afterRelease a s).blk, arg := (afterRelease a s).arg,
    path := (afterRelease a s).path, phase := (afterRelease a s).phase, cnt := (afterRelease a s).cnt,
    pos := (afterRelease a s).pos, r55 := (afterRelease a s).r55 } := by
  have hf : ∀ (f : Fail) (u : State), ∃ v r l p b q fl, raiseFail f u =
      { u with version := v, ready := r, lastStatus := l, phase := p, busy := b, pos := q, fail := fl } :=
    fun f u => ⟨_, _, _, _, _, _, _, raiseFail_frame f u⟩
  have hb : ∀ u : State, ∃ p q x, beginForceBlockLength u = { u with phase := p, pos := q, arg := x } :=
    fun u => ⟨_, _, _, beginForceBlockLength_frame u⟩
  have hl : ∀ u : State, ∃ v r l p b q fl x, legacySdTest u =
      { u with version := v, ready := r, lastStatus := l, phase := p, busy := b, pos := q, fail := fl, arg := x } := by
    intro u
    unfold legacySdTest
    split
    · obtain ⟨_, _, _, h⟩ := hb { u with version := .v1 }
      exact ⟨_, _, _, _, _, _, _, _, h⟩
    · split
      · obtain ⟨_, _, _, _, _, _, _, h⟩ := hf .timeout u
        exact ⟨_, _, _, _, _, _, _, _, h⟩
      · exact ⟨_, _, _, _, _, _, _, _, rfl⟩
  have close : ∀ {t : State}, (∃ v l fl r d b res k x pa p c q m, t = { s with
      version := v, lastStatus := l, fail := fl, ready := r, degraded := d, busy := b, result := res, blk := k, arg := x,
      path := pa, phase := p, cnt := c, pos := q, r55 := m }) → t = { s with
      version := t.version, lastStatus := t.lastStatus, fail := t.fail, ready := t.ready, degraded := t.degraded,
      busy := t.busy, result := t.result, blk := t.blk, arg := t.arg, path := t.path, phase := t.phase, cnt := t.cnt,
      pos := t.pos, r55 := t.r55 } := by
    rintro t ⟨_, _, _, _, _, _, _, _, _, _, _, _, _, _, rfl⟩
    rfl
  apply close
  have fromFail : ∀ (f : Fail) (u : State), (∃ v d x pa p c q m, u = { s with
      version := v, degraded := d, arg := x, path := pa, phase := p, cnt := c, pos := q, r55 := m }) →
      ∃ v l fl r d b res k x pa p c q m, raiseFail f u = { s with
      version := v, lastStatus := l, fail := fl, ready := r, degraded := d, busy := b, result := res, blk := k, arg := x,
      path := pa, phase := p, cnt := c, pos := q, r55 := m } := by
    rintro f u ⟨_, _, _, _, _, _, _, _, rfl⟩
    obtain ⟨_, _, _, _, _, _, _, h⟩ := hf f _
    exact ⟨_, _, _, _, _, _, _, _, _, _, _, _, _, _, h⟩
  have fromForce : ∀ (u : State), (∃ v d x pa p c q m, u = { s with
      version := v, degraded := d, arg := x, path := pa, phase := p, cnt := c, pos := q, r55 := m }) →
      ∃ v l fl r d b res k x pa p c q m, beginForceBlockLength u = { s with
      version := v, lastStatus := l, fail := fl, ready := r, degraded := d, busy := b, result := res, blk := k, arg := x,
      path := pa, phase := p, cnt := c, pos := q, r55 := m } := by
    rintro u ⟨_, _, _, _, _, _, _, _, rfl⟩
    obtain ⟨_, _, _, h⟩ := hb _
    exact ⟨_, _, _, _, _, _, _, _, _, _, _, _, _, _, h⟩
  have plain : ∃ v d x pa p c q m, s = { s with
      version := v, degraded := d, arg := x, path := pa, phase := p, cnt := c, pos := q, r55 := m } :=
    ⟨_, _, _, _, _, _, _, _, rfl⟩
  cases a with
  | raise f => exact fromFail f s plain
  | done c =>
    cases c <;> simp only [afterRelease, afterSpan]
    case cmd0 =>
      unfold afterReset
      split
      · exact ⟨_, _, _, _, _, _, _, _, _, _, _, _, _, _, rfl⟩
      · exact fromFail _ _ plain
    case cmd8 =>
      unfold afterVoltageCheck
      split
      · split
        · exact ⟨_, _, _, _, _, _, _, _, _, _, _, _, _, _, rfl⟩
        · split
          · exact fromFail _ _ plain
          · exact ⟨_, _, _, _, _, _, _, _, _, _, _, _, _, _, rfl⟩
      · exact ⟨_, _, _, _, _, _, _, _, _, _, _, _, _, _, rfl⟩
    case cmd55 =>
      unfold afterMarker
      split
      · exact ⟨_, _, _, _, _, _, _, _, _, _, _, _, _, _, rfl⟩
      · split <;> exact ⟨_, _, _, _, _, _, _, _, _, _, _, _, _, _, rfl⟩
    case acmd41Hcs =>
      unfold afterSdv2OpCond
      split
      · exact ⟨_, _, _, _, _, _, _, _, _, _, _, _, _, _, rfl⟩
      · split
        · exact fromFail _ _ plain
        · exact ⟨_, _, _, _, _, _, _, _, _, _, _, _, _, _, rfl⟩
    case acmd41Legacy =>
      unfold afterLegacyOpCond
      split
      · split
        · exact ⟨_, _, _, _, _, _, _, _, _, _, _, _, _, _, rfl⟩
        · obtain ⟨_, _, _, _, _, _, _, _, h⟩ := hl { s with path := .sd1, phase := .initLegacyWait }
          exact ⟨_, _, _, _, _, _, _, _, _, _, _, _, _, _, h⟩
      · obtain ⟨_, _, _, _, _, _, _, _, h⟩ := hl s
        exact ⟨_, _, _, _, _, _, _, _, _, _, _, _, _, _, h⟩
    case cmd58 =>
      unfold afterOcr
      split
      · exact fromForce _ ⟨_, _, _, _, _, _, _, _, rfl⟩
      · exact fromFail _ _ plain
    case cmd1 =>
      unfold afterLegacyInitiate
      split
      · exact fromForce _ ⟨_, _, _, _, _, _, _, _, rfl⟩
      · split
        · exact fromFail _ _ plain
        · exact ⟨_, _, _, _, _, _, _, _, _, _, _, _, _, _, rfl⟩
    case cmd16 =>
      unfold afterBlockLength
      split
      · exact ⟨_, _, _, _, _, _, _, _, _, _, _, _, _, _, rfl⟩
      · split
        · exact fromFail _ _ plain
        · exact ⟨_, _, _, _, _, _, _, _, _, _, _, _, _, _, rfl⟩
    case cmd17 =>
      unfold afterReadBlock
      dsimp only
      split <;> exact ⟨_, _, _, _, _, _, _, _, _, _, _, _, _, _, rfl⟩
    case cmd24 =>
      unfold afterWriteBlock
      split <;> exact ⟨_, _, _, _, _, _, _, _, _, _, _, _, _, _, rfl⟩
    case cmd9 =>
      unfold parseCsd
      split
      · exact fromFail _ _ plain
      · split
        · exact fromFail _ _ plain
        · exact ⟨_, _, _, _, _, _, _, _, _, _, _, _, _, _, rfl⟩

/-- The poll's tail does not poll again, and writes the phase, the countdown and the position only. -/
theorem afterPoll_frame (c : Cmd) (s : State) :
    afterPoll c s = { s with phase := (afterPoll c s).phase, cnt := (afterPoll c s).cnt, pos := (afterPoll c s).pos }
    ∧ ∀ d, (afterPoll c s).pos ≠ .poll d := by
  cases c <;> simp only [afterPoll] <;>
    first
    | exact ⟨rfl, fun _ => by simp⟩
    | (split <;> refine ⟨rfl, fun _ => ?_⟩ <;> simp [beginTokenWait, loadCnt])

end Sys2Proof.Machine
end

