-- ==== Sys2Proof/Laws/Invariant.lean ====
section
/-! SUPPORT. Lemmas about the invariant: what carries it over, how the end of an operation and a failure keep it, and reset. -/

namespace Sys2Proof.Machine

/-- The invariant reads none of the model's queues, the trace or the free-running counters. -/
theorem Inv.carry {s : State} (h : Inv s) (ms : Word) (cnt : BitVec 16) (host : List HostMove) (card : List Answer)
    (sched : List Mover) (trace : List Event) :
    Inv { s with ms := ms, cnt := cnt, host := host, card := card, sched := sched, trace := trace } :=
  ⟨h.config, h.buffer, h.place, h.busyIff, h.select, h.operation, h.blocks, h.session, h.index, h.readyFast, h.notReadyIdle,
    h.initSlow, h.classified, h.degradedByPolicy, h.readyKnown, h.pollLeft⟩

theorem Inv.scheduled {s : State} (h : Inv s) : Inv (scheduled s) := h.carry s.ms s.cnt s.host s.card _ s.trace

theorem Inv.tick {s : State} (h : Inv s) : Inv (tick s) := h.carry _ _ s.host s.card s.sched _

theorem Inv.exchanged {s : State} (h : Inv s) (o i : Byte) : Inv (exchanged o i s) := h.carry s.ms s.cnt s.host _ s.sched _

/-- Taking a START's buffer from the host keeps it. -/
theorem Inv.presented {s : State} (h : Inv s) (op : BitVec 3) (count : Word) (buffer : List Byte) :
    Inv (presented op count buffer s) := by
  rw [presented_frame]
  exact ⟨h.config, presented_wf h.buffer, h.place, h.busyIff, h.select, h.operation, h.blocks, h.session, h.index, h.readyFast,
    h.notReadyIdle, h.initSlow, h.classified, h.degradedByPolicy, h.readyKnown, h.pollLeft⟩

/-- While an operation is in flight, it is an Initialize exactly in the phases of Initialize. -/
theorem Inv.op_init_iff {s : State} (h : Inv s) (hp : s.phase ≠ .idle) : s.op = .init ↔ s.phase.op? = some .init := by
  refine ⟨fun ho => ?_, fun ho => h.operation _ ho⟩
  cases hq : s.phase.op? with
  | none => cases hph : s.phase <;> simp_all [Phase.op?]
  | some o => rw [← h.operation o hq, ho]

/-- A state whose operation has ended meets the invariant if its session fields do. -/
theorem Inv.of_ended {s : State} (config : s.cfg.ok = true) (buffer : Memory.wf s.hostbuf) (hq : s.pos = .done)
    (hp : s.phase = .idle) (hb : s.busy = false) (hcs : s.cs = .deasserted) (hrf : s.ready = true → s.clkTier = .fast)
    (hnr : s.ready = false → s.clkTier = .slow ∧ s.version = .unknown)
    (hd : s.degraded = true → degradeConfigured s.cfg = true)
    (hk : s.ready = true → s.version = .unknown → degradeConfigured s.cfg = true) : Inv s := by
  refine ⟨config, buffer, ?_, ?_, ?_, ?_, ?_, ?_, ?_, hrf, fun _ => hnr, ?_, ?_, hd, hk, ?_⟩ <;>
    simp [hq, hp, hb, hcs, posPlace, spanOpen, Phase.op?]

/-- A failure, taken with chip-select released, keeps the invariant. -/
theorem Inv.raiseFail {s : State} (h : Inv s) (f : Fail) (hcs : s.cs = .deasserted) (hp : s.phase ≠ .idle)
    (hq : s.pos ≠ .clkSlow) : Inv (raiseFail f s) := by
  by_cases ho : s.op = .init
  · rw [raiseFail_init ho]
    refine .of_ended h.config h.buffer rfl rfl rfl hcs (by simp [initFailed, ended]) (fun _ => ?_) h.degradedByPolicy
      (by simp [initFailed, ended])
    exact ⟨h.initSlow ((h.op_init_iff hp).1 ho) hq, rfl⟩
  · rw [raiseFail_other ho]
    refine .of_ended h.config h.buffer rfl rfl rfl hcs h.readyFast (fun hr => ?_) h.degradedByPolicy h.readyKnown
    have hr : s.ready = false := hr
    have hi := mt (h.op_init_iff hp).2 ho
    have := h.session.2
    cases hph : s.phase <;> simp_all [Phase.op?]

/-- An exchange that times out keeps the invariant, inside a span and outside one; inside a span the block in hand is not counted
yet. -/
theorem Inv.timedOut {s : State} (h : Inv s) (o : Byte) (hp : s.phase ≠ .idle) (hq : s.pos ≠ .clkSlow)
    (hb : s.cs = .asserted → blockCounted s.pos = false) : Inv (timedOut o s) := by
  have h' : Inv (emit (.xt o) { s with card := s.card.tail }) := h.carry s.ms s.cnt s.host _ s.sched _
  unfold Machine.timedOut
  have hcs : s.cs = .asserted ∨ s.cs = .deasserted := by cases s.cs <;> simp
  rcases hcs with hcs | hcs
  · rw [busTimeout_selected (show (emit (.xt o) { s with card := s.card.tail }).cs = _ from hcs)]
    exact ⟨h'.config, h'.buffer, by simpa [posPlace] using hp, h'.busyIff, by simpa [spanOpen] using hcs, h'.operation,
      fun o => ⟨(h'.blocks o).1, fun _ => (h'.blocks o).2.1 (hb hcs), (h'.blocks o).2.2⟩, h'.session, by simp,
      h'.readyFast, h'.notReadyIdle, fun a _ => h'.initSlow a hq, h'.classified, h'.degradedByPolicy, h'.readyKnown, by simp⟩
  · rw [busTimeout_released (show (emit (.xt o) { s with card := s.card.tail }).cs = _ from hcs)]
    exact h'.raiseFail _ hcs hp hq

end Sys2Proof.Machine
end

