-- ==== Sys2Proof/Laws/PerInstr.lean ====
section
/-! SUPPORT. Per-instruction statements: how many bytes the encoding of each row has. -/

namespace Sys2Proof.Laws.EncodeSize

/-- A frame has six bytes (30 R70, R85), a host word nine (log 18), every other row one byte (30 R74, R78, R79). -/
def Statement (i : Instr) : Prop :=
  ∀ c : Config, (encode c i).length =
    match i.port with
    | .frame => 6
    | .host => 9
    | .r1 => 1
    | .token => 1
    | .dresp => 1

theorem cmd0 : Statement .cmd0 := fun _ => rfl
theorem cmd8 : Statement .cmd8 := fun _ => rfl
theorem cmd55 : Statement .cmd55 := fun _ => rfl
theorem acmd41Hcs : Statement .acmd41Hcs := fun _ => rfl
theorem acmd41Legacy : Statement .acmd41Legacy := fun _ => rfl
theorem cmd58 : Statement .cmd58 := fun _ => rfl
theorem cmd1 : Statement .cmd1 := fun _ => rfl
theorem cmd16 : Statement .cmd16 := fun _ => rfl
theorem cmd17 (arg : Word) : Statement (.cmd17 arg) := fun _ => rfl
theorem cmd24 (arg : Word) : Statement (.cmd24 arg) := fun _ => rfl
theorem cmd9 : Statement .cmd9 := fun _ => rfl
theorem init (sector count : Word) : Statement (.init sector count) := fun _ => rfl
theorem read (sector count : Word) : Statement (.read sector count) := fun _ => rfl
theorem write (sector count : Word) : Statement (.write sector count) := fun _ => rfl
theorem getver (sector count : Word) : Statement (.getver sector count) := fun _ => rfl
theorem qcount (sector count : Word) : Statement (.qcount sector count) := fun _ => rfl
theorem qsize (sector count : Word) : Statement (.qsize sector count) := fun _ => rfl
theorem reserved6 (sector count : Word) : Statement (.reserved6 sector count) := fun _ => rfl
theorem reserved7 (sector count : Word) : Statement (.reserved7 sector count) := fun _ => rfl
theorem tokenStart : Statement .tokenStart := fun _ => rfl
theorem idleByte : Statement .idleByte := fun _ => rfl
theorem r1NotReady (b : Byte) : Statement (.r1NotReady b) := fun _ => rfl
theorem r1Valid (b : Byte) : Statement (.r1Valid b) := fun _ => rfl
theorem drespAccept (b : Byte) : Statement (.drespAccept b) := fun _ => rfl
theorem drespCrcErr (b : Byte) : Statement (.drespCrcErr b) := fun _ => rfl
theorem drespWriteErr (b : Byte) : Statement (.drespWriteErr b) := fun _ => rfl

end Sys2Proof.Laws.EncodeSize
end

