-- ==== Sys2Proof/Tests/Slice0.lean ====
section
/-! SUPPORT. The model's own tests. Expected values are those of spec/95_test_vectors.md (vectors V, programs P), of
spec/opcode_table.json, or worked out by hand from the rule named; and for every statement of Obligations.lean with hypotheses a
concrete state that meets them. -/

namespace Sys2Proof.Tests

open Sys2Proof Sys2Proof.Machine

/-! ## Small states -/

/-- What `f` reads after an outcome, if it is a next state. -/
def after {α : Type} (r : Result) (f : State → α) : Option α :=
  match r with
  | .next t => some (f t)
  | .fault _ => none
  | .refused _ => none

/-- An idle block with a session on a card of version `v`. -/
def session (v : Version) : State := { State.reset with version := v, clkTier := .fast, ready := true, lastStatus := .ok }

/-- A `V1` session inside a span of operation `o`, one block asked for. -/
def within (o : Op) (ph : Phase) (p : Pos) (card : List Answer) : State :=
  { session .v1 with op := o, busy := true, phase := ph, pos := p, cs := .asserted, count := 1, cnt := 7, card := card }

/-- An Initialize in flight, its clock down, chip-select released. -/
def starting (ph : Phase) (p : Pos) (card : List Answer) : State :=
  { State.reset with op := .init, busy := true, phase := ph, pos := p, cnt := 7, card := card }

/-- An Initialize whose command `c` has just been answered by the R1 byte `r`, its release byte to come. -/
def answered (ph : Phase) (c : Cmd) (r : Byte) : State := { starting ph (.release (.done c)) [.byte 0xFF] with r1 := r }

/-! ## Well-formedness: each check refuses an ill-formed term -/

theorem test_wf_r1_not_ready : Instr.wf .default (.r1NotReady 0x7F) = false ∧ Instr.wf .default (.r1NotReady 0x80) = true := by
  decide
theorem test_wf_r1_valid : Instr.wf .default (.r1Valid 0x80) = false ∧ Instr.wf .default (.r1Valid 0x7F) = true := by decide
theorem test_wf_dresp_accept : Instr.wf .default (.drespAccept 0xEB) = false ∧ Instr.wf .default (.drespAccept 0xE5) = true := by
  decide
theorem test_wf_dresp_crc_err :
    Instr.wf .default (.drespCrcErr 0x1B) = false ∧ Instr.wf .default (.drespCrcErr 0xEB) = true := by decide
theorem test_wf_dresp_write_err :
    Instr.wf .default (.drespWriteErr 0x05) = false ∧ Instr.wf .default (.drespWriteErr 0x0D) = true := by decide

/-! ## Decoding: every row's word, written bit by bit from its `encoding` in the table -/

theorem test_decode_cmd0 :
    decodeTableWord 48 0b010000000000000000000000000000000000000010010101 = some .cmd0 := by decide
theorem test_decode_cmd8 :
    decodeTableWord 48 0b010010000000000000000000000000011010101010000111 = some .cmd8 := by decide
theorem test_decode_cmd55 :
    decodeTableWord 48 0b011101110000000000000000000000000000000000000001 = some .cmd55 := by decide
theorem test_decode_acmd41_hcs :
    decodeTableWord 48 0b011010010100000000000000000000000000000000000001 = some .acmd41Hcs := by decide
theorem test_decode_acmd41_legacy :
    decodeTableWord 48 0b011010010000000000000000000000000000000000000001 = some .acmd41Legacy := by decide
theorem test_decode_cmd58 :
    decodeTableWord 48 0b011110100000000000000000000000000000000011111101 = some .cmd58 := by decide
theorem test_decode_cmd1 :
    decodeTableWord 48 0b010000010000000000000000000000000000000000000001 = some .cmd1 := by decide
theorem test_decode_cmd16 :
    decodeTableWord 48 0b010100000000000000000000000000100000000000000001 = some .cmd16 := by decide
/-- The argument bits 1000...0010: the first and the last but one of the field. -/
theorem test_decode_cmd17 :
    decodeTableWord 48 0b010100011000000000000000000000000000001000000001 = some (.cmd17 0x80000002) := by decide
theorem test_decode_cmd24 :
    decodeTableWord 48 0b010110000000000010101011110011011110111100000001 = some (.cmd24 0x00ABCDEF) := by decide
theorem test_decode_cmd9 :
    decodeTableWord 48 0b010010010000000000000000000000000000000000000001 = some .cmd9 := by decide

/-- 30 R82: the eight codes, as 3 bits and as a whole byte. -/
theorem test_decode_host_operations :
    (List.range 8).map (decodeTableWord 3) = [some (.init 0 0), some (.read 0 0), some (.write 0 0), some (.getver 0 0),
      some (.qcount 0 0), some (.qsize 0 0), some (.reserved6 0 0), some (.reserved7 0 0)]
    ∧ (List.range 8).map (decodeTableWord 8) = (List.range 8).map (decodeTableWord 3) := by decide

/-- A host word with its operands, most significant byte first (log 18). -/
theorem test_decode_host_operands :
    decode .default .host [0x02, 0x00, 0xAB, 0xCD, 0xEF, 0x80, 0x00, 0x00, 0x01, 0x55]
      = .ok (.write 0x00ABCDEF 0x80000001, [0x55]) := by decide

theorem test_decode_token_bytes :
    decodeTableWord 8 0b11111110 = some .tokenStart ∧ decodeTableWord 8 0b11111111 = some .idleByte := by decide

/-- 30 R79: the upper three bits are ignored and kept. -/
theorem test_decode_dresp :
    decode .default .dresp [0b00000101] = .ok (.drespAccept 0x05, [])
    ∧ decode .default .dresp [0b11101011] = .ok (.drespCrcErr 0xEB, [])
    ∧ decode .default .dresp [0b01001101] = .ok (.drespWriteErr 0x4D, [])
    ∧ decode .default .dresp [0b00010101] = .error .notADataResponse := by decide

/-- 30 R74: bit 7 alone decides. -/
theorem test_decode_r1 :
    decode .default .r1 [0b10000000] = .ok (.r1NotReady 0x80, []) ∧ decode .default .r1 [0b11111111] = .ok (.r1NotReady 0xFF, [])
    ∧ decode .default .r1 [0b00000000] = .ok (.r1Valid 0x00, []) ∧ decode .default .r1 [0b01111111] = .ok (.r1Valid 0x7F, []) := by
  decide

/-- 30 R84: what is no row is refused by name. -/
theorem test_decode_rejects :
    decode .default .frame [0x00, 0, 0, 0, 0, 0x95] = .error .badStartBits
    ∧ decode .default .frame [0xC0, 0, 0, 0, 0, 0x95] = .error .badStartBits
    ∧ decode .default .frame [0x40, 0, 0, 0, 0, 0x94] = .error .badCrc
    ∧ decode .default .frame [0x50, 0, 0, 4, 0, 0x01] = .error .badArgument
    ∧ decode .default .frame [0x42, 0, 0, 0, 0, 0x01] = .error .unknownIndex
    ∧ decode .default .frame [0x40, 0, 0, 0, 0] = .error .truncated
    ∧ decode .default .host [0x08, 0, 0, 0, 0, 0, 0, 0, 0] = .error .badOp
    ∧ decode .default .token [0xFD] = .error .notAToken := by decide

/-- No two frame rows, no two host rows, no two token rows and no two data-response rows of the table overlap: the (match, mask)
pairs as the table gives them. The R1 rows overlap none of each other. -/
theorem test_table_rows_disjoint :
    ([(0x400000000095, 0xFFFFFFFFFFFF), (0x48000001AA87, 0xFFFFFFFFFFFF), (0x770000000001, 0xFFFFFFFFFFFF),
      (0x694000000001, 0xFFFFFFFFFFFF), (0x690000000001, 0xFFFFFFFFFFFF), (0x7A00000000FD, 0xFFFFFFFFFFFF),
      (0x410000000001, 0xFFFFFFFFFFFF), (0x500000020001, 0xFFFFFFFFFFFF), (0x510000000001, 0xFF00000000FF),
      (0x580000000001, 0xFF00000000FF), (0x490000000001, 0xFFFFFFFFFFFF)] : List (BitVec 48 × BitVec 48)).Pairwise
        (fun x y => x.1 &&& y.2 ≠ y.1 &&& x.2)
    ∧ ([(0x05, 0x1F), (0x0B, 0x1F), (0x0D, 0x1F)] : List (Byte × Byte)).Pairwise (fun x y => x.1 &&& y.2 ≠ y.1 &&& x.2) := by
  decide

/-! ## Frames (V1 to V14), predicates (V20), trailing information (V21, V22), translation (V23) -/

/-- V1 to V8, V10. -/
theorem test_frames_constant :
    [Instr.cmd0, .cmd8, .cmd55, .acmd41Hcs, .acmd41Legacy, .cmd58, .cmd1, .cmd16, .cmd9].map (encode .default) =
      [[0x40, 0x00, 0x00, 0x00, 0x00, 0x95], [0x48, 0x00, 0x00, 0x01, 0xAA, 0x87], [0x77, 0x00, 0x00, 0x00, 0x00, 0x01],
       [0x69, 0x40, 0x00, 0x00, 0x00, 0x01], [0x69, 0x00, 0x00, 0x00, 0x00, 0x01], [0x7A, 0x00, 0x00, 0x00, 0x00, 0xFD],
       [0x41, 0x00, 0x00, 0x00, 0x00, 0x01], [0x50, 0x00, 0x00, 0x02, 0x00, 0x01], [0x49, 0x00, 0x00, 0x00, 0x00, 0x01]] := by
  decide

/-- V9, V11 to V14. -/
theorem test_frames_addressed :
    encode .default (.cmd17 (translate .v2Block 0)) = [0x51, 0x00, 0x00, 0x00, 0x00, 0x01]
    ∧ encode .default (.cmd17 (translate .v1 1)) = [0x51, 0x00, 0x00, 0x02, 0x00, 0x01]
    ∧ encode .default (.cmd24 (translate .v2Block 0x00ABCDEF)) = [0x58, 0x00, 0xAB, 0xCD, 0xEF, 0x01]
    ∧ encode .default (.cmd17 (translate .v2Byte 0x007FFFFF)) = [0x51, 0xFF, 0xFF, 0xFE, 0x00, 0x01]
    ∧ encode .default (.cmd24 (translate .v2Block 0xFFFFFFFF)) = [0x58, 0xFF, 0xFF, 0xFF, 0xFF, 0x01] := by decide

set_option maxRecDepth 4000 in
/-- 93 G3: the three fixed CRC bytes are the CRC-7 fields of their frames. -/
theorem test_crc7_of_fixed_frames :
    crc7Field [0x40, 0, 0, 0, 0] = 0x95 ∧ crc7Field [0x48, 0, 0, 0x01, 0xAA] = 0x87 ∧ crc7Field [0x7A, 0, 0, 0, 0] = 0xFD := by
  decide

/-- V20.0 to V20.9. -/
theorem test_r1_predicates :
    [(0x00 : Byte), 0x01, 0x04, 0x05, 0x08, 0x40, 0x7F, 0x80, 0x84, 0xFF].map
        (fun r => (r1Valid .default r, r1Ok .default r, r1Idle .default r, r1NoError r, r1Illegal r)) =
      [(true, true, false, true, false), (true, false, true, true, false), (true, false, false, false, true),
       (true, false, false, false, true), (true, false, false, false, false), (true, false, false, false, false),
       (true, false, false, false, true), (false, false, false, false, false), (false, false, false, false, false),
       (false, false, false, false, false)] := by decide

/-- 10 R41: the flag views of the byte 0xA5, bits 7, 5, 2 and 0. -/
theorem test_r1_flags :
    [r1NotReady 0xA5, r1ParamErr 0xA5, r1AddrErr 0xA5, r1EraseSeqErr 0xA5, r1CrcErr 0xA5, r1IllegalCmd 0xA5, r1EraseReset 0xA5,
      r1IdleFlag 0xA5] = [true, false, true, false, false, true, false, true] := by decide

/-- V21, V22, V22a to V22d: packing, the echo test, the high-capacity bit. -/
theorem test_trailing :
    ([packWord 0x00 0x00 0x01 0xAA, packWord 0xC0 0xFF 0x80 0x00, packWord 0x80 0xFF 0x80 0x00, packWord 0x12 0x34 0x51 0xAA,
      packWord 0x00 0x00 0x00 0xAA, packWord 0xFF 0xFF 0xFF 0xFF].map
        fun t => (t, patternEchoed .default t, highCapacity .default t)) =
      [(0x000001AA, true, false), (0xC0FF8000, false, true), (0x80FF8000, false, false), (0x123451AA, true, false),
       (0x000000AA, false, false), (0xFFFFFFFF, false, true)] := by decide

/-- V23.2, V23.3, V23.5 to V23.7, V23.10, V23.15. -/
theorem test_translate :
    Machine.translate .v2Block 0x00ABCDEF = 0x00ABCDEF ∧ Machine.translate .v2Block 0xFFFFFFFF = 0xFFFFFFFF
    ∧ Machine.translate .v2Byte 1 = 0x200 ∧ Machine.translate .v2Byte 0x1234 = 0x00246800 ∧ Machine.translate .v2Byte 0x007FFFFF = 0xFFFFFE00
    ∧ Machine.translate .v1 0x1234 = 0x00246800 ∧ Machine.translate .mmcV3 0x007FFFFF = 0xFFFFFE00 := by decide

/-- V24.5 to V24.9, V24.13 to V24.17: the parameter checks. -/
theorem test_parameter_checks :
    [parametersOk .v1 0 0, parametersOk .v1 0x00800000 1, parametersOk .v1 0x007FFFFF 2, parametersOk .v2Block 0xFFFFFFFF 2,
     parametersOk .v2Block 0 0, parametersOk .v2Block 0xFFFFFFFF 1, parametersOk .v1 0x007FFFFF 1,
     parametersOk .v2Block 0 0xFFFFFFFF, parametersOk .v2Block 1 0xFFFFFFFF, parametersOk .v2Block 2 0xFFFFFFFF] =
      [false, false, false, false, false, true, true, true, true, false] := by decide

/-! ## The host buffer -/

/-- Written out of order, overwritten, and blanked again: one canonical form. -/
theorem test_memory_canonical :
    (((Memory.write [] 5 0xAA).write 2 0xBB).write 5 0xCC).write 2 0x00 = [(5, 0xCC)]
    ∧ Memory.read [(5, 0xCC)] 5 = 0xCC ∧ Memory.read [(5, 0xCC)] 4 = 0x00 := by decide

/-- 20 R52: an offset outside the operation's buffer is the model's named fault (log 16), here with `blk = count`. -/
theorem test_buffer_fault :
    exec .idleByte { within .read .rdData .data [.byte 0xC3] with blk := 1 } = .fault (.hostbufRange 512) := by rfl

/-! ## Host operations, one START step each -/

/-- 42 R140: admitted after reset and with a session; the session is cleared and `CLK(Slow)` is next. -/
theorem test_init :
    after (exec (.init 3 4) (session .v1)) (fun t => (t.ready, t.version, t.pos, t.trace)) =
      some (false, .unknown, .clkSlow, [.start .init 3 4 []]) := by decide

/-- V24.14: the last sector of a byte-addressed card, argument 0xFFFFFE00. -/
theorem test_read_admitted :
    after (exec (.read 0x007FFFFF 1) (session .v1)) (fun t => (t.pos, t.arg, t.phase, t.blk)) =
      some (.issue .cmd17, 0xFFFFFE00, .rdCommand, 0) := by decide

/-- V24.11: the session check comes first. -/
theorem test_read_refused :
    after (exec (.read 0 0) { session .unknown with degraded := true }) (fun t => (t.lastStatus, t.fail, t.busy, t.pos)) =
      some (.notInitialized, .none, false, .done) := by decide

/-- V24.16. -/
theorem test_write_admitted :
    after (exec (.write 1 0xFFFFFFFF) (session .v2Block)) (fun t => (t.pos, t.arg, t.phase)) =
      some (.issue .cmd24, 1, .wrCommand) := by decide

/-- V24.17. -/
theorem test_write_refused :
    after (exec (.write 2 0xFFFFFFFF) (session .v2Block)) (fun t => (t.lastStatus, t.fail, t.busy, t.pos)) =
      some (.parameterError, .none, false, .done) := by decide

/-- P1: `result = 3` is `V2Block`. -/
theorem test_getver :
    after (exec (.getver 0 0) (session .v2Block)) (fun t => (t.result, t.lastStatus, t.fail, t.phase, t.pos)) =
      some (3, .ok, .none, .idle, .done) := by decide

/-- V24.3: result 0 after reset. -/
theorem test_getver_reset : after (exec (.getver 0 0) State.reset) (fun t => (t.result, t.lastStatus)) = some (0, .ok) := by decide

/-- V24.4. -/
theorem test_qsize : after (exec (.qsize 0 0) State.reset) (fun t => (t.result, t.lastStatus)) = some (512, .ok) := by decide

/-- V24.2. -/
theorem test_qcount_no_session :
    after (exec (.qcount 0 0) State.reset) (fun t => (t.lastStatus, t.pos)) = some (.notInitialized, .done) := by decide

/-- P7: command 9 with argument 0. -/
theorem test_qcount :
    after (exec (.qcount 0 0) (session .v2Block)) (fun t => (t.pos, t.arg, t.phase)) = some (.issue .cmd9, 0, .qscCommand) := by
  decide

/-- V24.12. -/
theorem test_reserved :
    after (exec (.reserved6 0 0) (session .v1)) (fun t => (t.lastStatus, t.fail, t.pos)) = some (.parameterError, .none, .done)
    ∧ after (exec (.reserved7 0 0) State.reset) (fun t => (t.lastStatus, t.fail, t.pos)) =
        some (.parameterError, .none, .done) := by decide

/-- 93 U3: a START while an operation is in flight is no move. -/
theorem test_start_while_busy :
    exec (.getver 0 0) (within .read .rdData .data []) = .refused .startWhileBusy := by rfl

/-! ## Commands, one step each -/

/-- V1 to V10: where the command is called, CS(1) and its frame. -/
theorem test_commands :
    ([(Instr.cmd0, Cmd.cmd0), (.cmd8, .cmd8), (.cmd55, .cmd55), (.acmd41Hcs, .acmd41Hcs), (.acmd41Legacy, .acmd41Legacy),
      (.cmd58, .cmd58), (.cmd1, .cmd1), (.cmd16, .cmd16), (.cmd9, .cmd9)].map fun p =>
        after (exec p.1 { session .v1 with pos := .issue p.2 }) fun t => (t.arg, t.frame, t.cs, t.trace.length)) =
      [some (0x00000000, #v[0x40, 0x00, 0x00, 0x00, 0x00, 0x95], .asserted, 1),
       some (0x000001AA, #v[0x48, 0x00, 0x00, 0x01, 0xAA, 0x87], .asserted, 1),
       some (0x00000000, #v[0x77, 0x00, 0x00, 0x00, 0x00, 0x01], .asserted, 1),
       some (0x40000000, #v[0x69, 0x40, 0x00, 0x00, 0x00, 0x01], .asserted, 1),
       some (0x00000000, #v[0x69, 0x00, 0x00, 0x00, 0x00, 0x01], .asserted, 1),
       some (0x00000000, #v[0x7A, 0x00, 0x00, 0x00, 0x00, 0xFD], .asserted, 1),
       some (0x00000000, #v[0x41, 0x00, 0x00, 0x00, 0x00, 0x01], .asserted, 1),
       some (0x00000200, #v[0x50, 0x00, 0x00, 0x02, 0x00, 0x01], .asserted, 1),
       some (0x00000000, #v[0x49, 0x00, 0x00, 0x00, 0x00, 0x01], .asserted, 1)] := by decide

/-- V13 and V12. -/
theorem test_block_commands :
    after (exec (.cmd17 0xFFFFFE00) { session .v1 with pos := .issue .cmd17 }) (fun t => (t.arg, t.frame, t.cs)) =
      some (0xFFFFFE00, #v[0x51, 0xFF, 0xFF, 0xFE, 0x00, 0x01], .asserted)
    ∧ after (exec (.cmd24 0x00ABCDEF) { session .v2Block with pos := .issue .cmd24 }) (fun t => (t.arg, t.frame, t.cs)) =
      some (0x00ABCDEF, #v[0x58, 0x00, 0xAB, 0xCD, 0xEF, 0x01], .asserted) := by decide

/-! ## Bytes on the bus, one step each -/

/-- V17, the tenth read: the budget ends with a byte that is no response. -/
theorem test_r1_not_ready_last :
    after (exec (.r1NotReady 0xFF) { within .read .rdCommand (.poll .cmd17) [.byte 0xFF] with pollCnt := 1 })
      (fun t => (t.r1, t.pollCnt, t.pos)) = some (0xFF, 0, .deselect (.raise .commandRejected)) := by decide

/-- V19a, the second read. -/
theorem test_r1_not_ready :
    after (exec (.r1NotReady 0xC1) { within .read .rdCommand (.poll .cmd17) [.byte 0xC1] with pollCnt := 9 })
      (fun t => (t.r1, t.pollCnt, t.pos)) = some (0xC1, 8, .poll .cmd17) := by decide

/-- V15: the first read ends the poll; the token wait loads its countdown (V43.5). -/
theorem test_r1_valid :
    after (exec (.r1Valid 0x00) { within .read .rdCommand (.poll .cmd17) [.byte 0x00] with pollCnt := 10 })
      (fun t => (t.r1, t.pollCnt, t.phase, t.cnt)) = some (0x00, 9, .rdTokenWait, 200) := by decide

/-- V46, the second block: 0x20 is `CommandRejected` after `deselect()`. -/
theorem test_r1_valid_error :
    after (exec (.r1Valid 0x20) { within .read .rdCommand (.poll .cmd17) [.byte 0x20] with pollCnt := 9 })
      (fun t => (t.r1, t.pos)) = some (0x20, .deselect (.raise .commandRejected)) := by decide

/-- V39.6: the token is accepted with the countdown at 0. -/
theorem test_token_start :
    after (exec .tokenStart { within .read .rdTokenWait .tokenWait [.byte 0xFE] with cnt := 0, idx := 511 })
      (fun t => (t.phase, t.idx, t.pos, t.trace)) = some (.rdData, 0, .data, [.x 0xFF 0xFE]) := by decide

/-- P4: the token sent, FF received. -/
theorem test_token_start_sent :
    after (exec .tokenStart (within .write .wrLead .leadToken [.byte 0xFF])) (fun t => (t.phase, t.idx, t.pos, t.trace)) =
      some (.wrData, 0, .sendData, [.x 0xFE 0xFF]) := by decide

/-- V39.5: 0xFF with `cnt = 0`. -/
theorem test_idle_byte_token_expired :
    after (exec .idleByte { within .read .rdTokenWait .tokenWait [.byte 0xFF] with cnt := 0 }) (fun t => (t.pos, t.cs)) =
      some (.deselect (.raise .dataTokenError), .asserted) := by decide

/-- V41.5: 0xFF wins over an expired countdown; the busy-wait of block 0 has ended (44 R206). -/
theorem test_idle_byte_released :
    after (exec .idleByte { within .write .wrBusyWait .busyWait [.byte 0xFF] with cnt := 0 }) (fun t => (t.pos, t.blk)) =
      some (.deselect (.done .cmd24), 1) := by decide

/-- P4: 0xE5 is accepted; the busy-wait loads its countdown. -/
theorem test_dresp_accept :
    after (exec (.drespAccept 0xE5) (within .write .wrDataResp .dresp [.byte 0xE5])) (fun t => (t.dresp, t.cnt, t.pos)) =
      some (0xE5, 500, .busyWait) := by decide

/-- P8. -/
theorem test_dresp_crc_err :
    after (exec (.drespCrcErr 0xEB) (within .write .wrDataResp .dresp [.byte 0xEB])) (fun t => (t.dresp, t.cnt, t.pos)) =
      some (0xEB, 7, .deselect (.raise .writeRejected)) := by decide

theorem test_dresp_write_err :
    after (exec (.drespWriteErr 0xED) (within .write .wrDataResp .dresp [.byte 0xED])) (fun t => (t.dresp, t.pos)) =
      some (0xED, .deselect (.raise .writeRejected)) := by decide

/-- Executed out of its place, a row is no move (log 10). -/
theorem test_no_such_move : exec .cmd0 State.reset = .refused .noSuchMove ∧ exec .idleByte State.reset = .refused .noSuchMove := by
  exact ⟨rfl, rfl⟩

/-! ## Single steps of the machine -/

/-- V43.0, V43.2, V43.3. -/
theorem test_tick :
    after (step { State.reset with cnt := 3, ms := 41, sched := [.tick] }) (fun t => (t.cnt, t.ms)) = some (2, 42)
    ∧ after (step { State.reset with cnt := 0, ms := 0xFFFFFFFF, sched := [.tick] }) (fun t => (t.cnt, t.ms)) = some (0, 0) := by
  decide

/-- 60 R237: inside a span, an exchange that times out is followed by CS(0). -/
theorem test_bus_timeout :
    after (step { starting .initVoltageCheck (.frame .cmd8 3) [.timeout] with cs := .asserted, frame := #v[72, 0, 0, 1, 170, 135] })
      (fun t => (t.pos, t.trace)) = some (.abort, [.xt 1])
    ∧ after (step { starting .initVoltageCheck .abort [] with cs := .asserted })
      (fun t => (t.pos, t.trace, t.lastStatus, t.fail)) = some (.done, [.cs .deasserted], .ioError, .busTimeout) := by decide

/-- V42.0, V42.3 and V42.4, at the end of the CSD's span. -/
theorem test_csd :
    ([#v[0x40, 0, 0, 0, 0, 0, 0, 0x00, 0x3B, 0x37, 0, 0, 0, 0, 0, 0], #v[0x40, 0, 0, 0, 0, 0, 0, 0x3F, 0xFF, 0xFE, 0, 0, 0, 0, 0, 0],
      #v[0x40, 0, 0, 0, 0, 0, 0, 0x3F, 0xFF, 0xFF, 0, 0, 0, 0, 0, 0]].map fun csd =>
        after (step { within .qcount .qscCrc (.release (.done .cmd9)) [.byte 0xFF] with cs := .deasserted, csd := csd, result := 9 })
          fun t => (t.lastStatus, t.fail, t.result)) =
      [some (.ok, .none, 15523840), some (.ok, .none, 4294966272), some (.parameterError, .csdUnsupported, 9)] := by decide

/-- A configuration that breaks 00 R7 is refused: an empty poll budget. -/
theorem test_bad_configuration :
    step { State.reset with cfg := { Config.default with r1PollBudget := 0 } } = .refused .badConfiguration := by rfl

/-- What the host asks: each row's word placed, the very next step runs its instruction. Here the event of that step. -/
theorem test_placed_words :
    ([(48, 0x400000000095), (48, 0x48000001AA87), (48, 0x510000020001), (3, 5), (8, 0xFE), (8, 0x80), (8, 0xE5)].map fun p =>
        after (step (State.reset.withFetchWord p.1 p.2)) fun t => (t.trace, t.frame[0])) =
      [some ([.cs .asserted], 0x40), some ([.cs .asserted], 0x48), some ([.cs .asserted], 0x51), some ([.start .qsize 0 0 []], 0),
       some ([.x 0xFF 0xFE], 0), some ([.x 0xFF 0x80], 0), some ([.x 0xFF 0xE5], 0)] := by decide

/-- 10 R42, V46: what the host reads after the failed read, and that it reads nothing while a read is in flight. -/
theorem test_host_port :
    hostPort { session .v1 with lastStatus := .ioError, fail := .commandRejected, blk := 1, r1 := 0x20, hostbuf := [(0, 0xC3)] } =
      { busy := false, status := 2, fail := 4, result := 0,
        read := some { lastStatus := 2, fail := 4, blk := 1, r1 := 0x20, trailing := 0, dresp := 0, hostbuf := [(0, 0xC3)] } }
    ∧ (hostPort (within .read .rdData .data [])).read = none ∧ (hostPort { session .v1 with pos := .done }).read = none := by decide

/-- 30 R86, V46: the notation of a trace. -/
theorem test_trace_text :
    traceText { State.reset with trace := [.done .ioError .commandRejected, .xt 0x01, .x 0xFF 0x0A, .cs .asserted, .clk .slow,
      .start .read 8 2 []] } =
      ["START(READ,0x8,2)", "CLK(Slow)", "CS(1)", "X(FF,0A)", "XT(01)", "DONE(IOError,CommandRejected)"] := by decide

/-- 30 R86, P5: the notation of a host program, `count` in decimal. -/
theorem test_host_program_text :
    hostProgramText [.start 0 0 0 [], .poke 0 0xAA, .start 2 0x00ABCDEF 10 [0x01], .start 3 7 7 []] =
      ["INIT", "WRITE 0x00ABCDEF, 10", "GETVER"] := by decide

/-- 30 R86: `exchange(55, 0)` is the command's span, here with one not-ready read (V0: `77 00 00 00 00 01`), and `FRAME(58, 0)` its six bytes. -/
theorem test_pseudo_operations :
    (Pseudo.exchange 55 0).text = "exchange(55, 0x0)"
    ∧ ((Pseudo.exchange 55 0).events .default [0xFF, 0xFF, 0xFF, 0xFF, 0xFF, 0xFF, 0xFF, 0x01, 0xAA]).map Event.text =
        ["CS(1)", "X(77,FF)", "X(00,FF)", "X(00,FF)", "X(00,FF)", "X(00,FF)", "X(01,FF)", "X(FF,FF)", "X(FF,01)", "CS(0)",
          "X(FF,AA)"]
    ∧ ((Pseudo.frame 58 0).events .default (List.replicate 6 0xFF)).map Event.text =
        ["X(7A,FF)", "X(00,FF)", "X(00,FF)", "X(00,FF)", "X(00,FF)", "X(FD,FF)"] := by decide

/-- P6: the read into buffer A leaves it as it was, the write sends buffer B, and the read after it fills buffer C; here one byte each, at
the START steps and at the first byte received. -/
theorem test_buffers_are_arguments :
    (let s := { session .v2Block with hostbuf := [(0, 0x23)], host := [.start 2 5 1 [0xFF, 0xFE]] }
     (after (step s) fun t => (t.hostbuf, t.trace)) = some ([(0, 0xFF), (1, 0xFE)], [.start .write 5 1 [(0, 0xFF), (1, 0xFE)]])
     ∧ (after (step s) fun t => t.earlier) = some [[(0, 0x23)]])
    ∧ (let s := { session .v2Block with hostbuf := [(0, 0xFF)], earlier := [[(0, 0x23)]], host := [.start 1 5 1 []] }
       (after (step s) fun t => (t.hostbuf, t.trace)) = some ([], [.start .read 5 1 []])
       ∧ (after (step s) fun t => t.earlier) = some [[(0, 0xFF)], [(0, 0x23)]])
    ∧ (let s := { within .read .rdData .data [.byte 0xFF] with earlier := [[(0, 0xFF)], [(0, 0x23)]] }
       (after (step s) fun t => t.hostbuf) = some [(0, 0xFF)] ∧ (after (step s) fun t => t.earlier) = some s.earlier) := by decide

/-! ## States that meet the hypotheses of the statements

One theorem a statement, named after it. Where a statement has several clauses, each clause has its witness here, at a value where
clauses meet. -/

/-- A configuration with permissive policies, inside the constraints. -/
def permissive : Config := { Config.default with pVcheckMismatch := .degrade, pBlocklenFail := .degrade }

theorem witness_decode_of_encode :
    Config.default.ok = true ∧ Config.default.decodable = true ∧ Instr.wf .default (.cmd17 0xFFFFFFFF) = true
    ∧ Instr.wf .default (.r1Valid 0x7F) = true ∧ Instr.wf .default (.r1NotReady 0xFF) = true
    ∧ Instr.wf .default (.drespAccept 0xE5) = true ∧ Instr.wf .default (.drespCrcErr 0x0B) = true
    ∧ Instr.wf .default (.drespWriteErr 0x0D) = true := by decide

theorem witness_encode_of_decode :
    decode .default .frame [0x58, 0xFF, 0xFF, 0xFF, 0xFF, 0x01] = .ok (.cmd24 0xFFFFFFFF, [])
    ∧ decode .default .host [7, 0, 0, 0, 0, 0, 0, 0, 0] = .ok (.reserved7 0 0, []) := by decide

theorem witness_reserved_encodings :
    (0x80 : Byte).extractLsb' 6 2 ≠ 1 ∧ (0x42 : Byte).extractLsb' 6 2 = 1
    ∧ (0x42 : Byte).extractLsb' 0 6 ∉ Config.default.indices ∧ 7 < (8 : Byte).toNat
    ∧ (0xFD : Byte) ≠ Config.default.tokenStart ∧ (0xFD : Byte) ≠ Config.default.idleByte
    ∧ (0x15 : Byte) &&& Config.default.drMask
        ∉ [Config.default.drAccept, Config.default.drCrcErr, Config.default.drWriteErr] := by decide

/-- An argument one off that of CMD16, one off the high-capacity request, and a CRC byte one off that of CMD0. -/
theorem witness_reserved_arguments_and_crc :
    Config.default.decodable = true
    ∧ (∀ d ∈ [Cmd.cmd0, .cmd8, .cmd55, .acmd41Hcs, .acmd41Legacy, .cmd58, .cmd1, .cmd16, .cmd17, .cmd24, .cmd9],
        (d.index .default = Cmd.cmd16.index .default → (0x201 : Word) ≠ d.argument .default 0x201)
        ∧ (d.index .default = Cmd.acmd41Hcs.index .default → (0x40000001 : Word) ≠ d.argument .default 0x40000001))
    ∧ (0 : Word) = Cmd.cmd0.argument .default 0 ∧ (0x94 : Byte) ≠ crcByte .default (Cmd.cmd0.index .default) := by decide

theorem witness_frame_fields :
    (63 : BitVec 6) ∉ [Config.default.idxReset, Config.default.idxVcheck, Config.default.idxOcr] := by decide

theorem witness_command_rows :
    ∀ c ∈ [Cmd.cmd0, .cmd8, .cmd55, .acmd41Hcs, .acmd41Legacy, .cmd58, .cmd1, .cmd16, .cmd17, .cmd24, .cmd9],
      (starting .initReset (.issue c) []).cfg.ok = true ∧ (starting .initReset (.issue c) []).pos = .issue c := by decide

theorem witness_command_sends_its_frame :
    let s := starting .initReset (.issue .cmd0) (List.replicate 6 (.byte 0xFF) ++ [.timeout])
    s.cfg.ok = true ∧ noTick 7 s ∧ s.pos = .issue .cmd0 ∧ s.arg = Cmd.cmd0.argument s.cfg s.arg
    ∧ answering [0xFF, 0xFF, 0xFF, 0xFF, 0xFF, 0xFF] [.timeout] s := by decide

/-- The last two frame bytes, a tick to come after each. -/
theorem witness_command_sends_its_frame_by_steps :
    ∀ k ∈ [(4 : Fin 6), 5],
      let s := { starting .initReset (.frame .cmd0 k) [.byte 0x00] with cs := .asserted, sched := [.block, .tick] }
      s.cfg.ok = true ∧ noTick 1 s ∧ s.pos = .frame .cmd0 k ∧ s.card = [.byte 0x00] := by decide

theorem witness_not_ready_byte :
    let s := within .read .rdCommand (.poll .cmd17) [.byte 0x80]
    s.cfg.ok = true ∧ s.pos = .poll .cmd17 ∧ (0x80 : Byte).getLsbD 7 = true ∧ s.card = [.byte 0x80]
    ∧ { s with pollCnt := 2 }.pollCnt ≠ 1 ∧ { s with pollCnt := 1 }.pollCnt = 1 := by decide

theorem witness_valid_byte :
    let s := { within .read .rdCommand (.poll .cmd17) [.byte 0x7F] with pollCnt := 1 }
    s.cfg.ok = true ∧ s.pos = .poll .cmd17 ∧ (0x7F : Byte).getLsbD 7 = false ∧ s.card = [.byte 0x7F] := by decide

/-- A byte at once, and a budget used up without one (V17). -/
theorem witness_poll_reads :
    (let s := { within .read .rdCommand (.poll .cmd17) [.byte 0x00] with pollCnt := 10 }
     s.cfg.ok = true ∧ noTick 1 s ∧ s.pos = .poll .cmd17 ∧ s.pollCnt = s.cfg.r1PollBudget ∧ answering ([] ++ [0x00]) [] s
     ∧ ([] : List Byte).length + 1 ≤ s.cfg.r1PollBudget.toNat ∧ (0x00 : Byte).getLsbD 7 = false)
    ∧ (let bs := List.replicate 9 (0xFF : Byte)
       let s := { within .read .rdCommand (.poll .cmd17) ((bs ++ [0xFF]).map .byte) with pollCnt := 10 }
       noTick (bs.length + 1) s ∧ answering (bs ++ [0xFF]) [] s ∧ (∀ x ∈ bs, x.getLsbD 7 = true)
       ∧ bs.length + 1 = s.cfg.r1PollBudget.toNat)
    ∧ tickMoves { within .read .rdCommand (.poll .cmd17) [] with sched := [.tick] } = true := by decide

theorem witness_trailing_bytes :
    let s := { starting .initOcrRead (.trail0 .cmd58) [.byte 0xC0, .byte 0xFF, .byte 0x80, .byte 0x00] with cs := .asserted }
    s.cfg.ok = true ∧ noTick 4 s ∧ s.pos = .trail0 .cmd58 ∧ answering [0xC0, 0xFF, 0x80, 0x00] [] s := by decide

theorem witness_trailing_bytes_by_steps :
    ∀ p ∈ [Pos.trail0 .cmd58, .trail1 .cmd58 0xC0, .trail2 .cmd58 0xC0 0xFF, .trail3 .cmd58 0xC0 0xFF 0x80],
      let s := { starting .initOcrRead p [.byte 0x00] with cs := .asserted, sched := [.block, .tick] }
      s.cfg.ok = true ∧ noTick 1 s ∧ s.pos = p ∧ s.card = [.byte 0x00] := by decide

theorem witness_deselect :
    let s := fun card => within .read .rdCommand (.deselect (.raise .commandRejected)) card
    (s [.byte 0x00]).cfg.ok = true ∧ noTick 2 (s [.byte 0x00])
    ∧ (s [.byte 0x00]).pos = .deselect (.raise .commandRejected) ∧ (s [.byte 0x00]).card = [.byte 0x00]
    ∧ (s [.timeout]).card = [.timeout]
    ∧ noTick 1 { s [] with sched := [.block, .tick] } := by decide

theorem witness_idle_byte :
    (let s := { within .read .rdData .data [.byte 0xA5] with idx := 511 }
     s.cfg.ok = true ∧ sendsIdle s.pos = true ∧ s.pos = .data ∧ s.phase ≠ .qscData ∧ s.blk < s.count ∧ s.idx.toNat < 512
     ∧ s.card = [.byte 0xA5])
    ∧ (let s := within .qcount .qscData .data []
       sendsIdle s.pos = true ∧ s.phase = .qscData ∧ s.card = []) := by decide

theorem witness_data_byte_stored :
    ∀ k ∈ [(510 : BitVec 10), 511],
      let s := { within .read .rdData .data [.byte 0xA5] with idx := k, hostbuf := [(3, 0x11)] }
      s.cfg.ok = true ∧ Memory.wf s.hostbuf ∧ s.pos = .data ∧ s.phase = .rdData ∧ s.blk < s.count ∧ s.idx.toNat < 512
      ∧ s.card = [.byte 0xA5] := by decide

theorem witness_csd_byte_stored :
    ∀ k ∈ [(14 : BitVec 10), 15],
      let s := { within .qcount .qscData .data [.byte 0xA5] with idx := k }
      s.cfg.ok = true ∧ s.pos = .data ∧ s.phase = .qscData ∧ s.idx.toNat < 16 ∧ s.card = [.byte 0xA5] := by decide

theorem witness_crc_bytes :
    ∀ p ∈ [Phase.rdCrc, .qscCrc],
      let s := within .read p (.crc false) [.byte 0x12, .byte 0x34]
      s.cfg.ok = true ∧ noTick 2 s ∧ s.pos = .crc false ∧ (s.phase = .rdCrc ∨ s.phase = .qscCrc)
      ∧ answering [0x12, 0x34] [] s
      ∧ noTick 1 { s with sched := [.block, .tick] } ∧ { s with pos := .crc true }.pos = .crc true := by decide

theorem witness_start_token :
    (∀ p ∈ [Phase.rdTokenWait, .qscTokenWait],
      let s := within .read p .tokenWait [.byte 0xFE]
      s.cfg.ok = true ∧ s.pos = .tokenWait ∧ s.phase = p ∧ s.card = [.byte s.cfg.tokenStart])
    ∧ (within .write .wrLead .leadToken [.byte 0x00]).card = [.byte 0x00] := by decide

theorem witness_token_wait :
    ∀ b ∈ [(0xFF : Byte), 0xFD],
      let s := within .read .rdTokenWait .tokenWait [.byte b]
      s.cfg.ok = true ∧ s.pos = .tokenWait ∧ s.card = [.byte b] ∧ b ≠ s.cfg.tokenStart
      ∧ { s with cnt := 1 }.cnt ≠ 0 ∧ { s with cnt := 0 }.cnt = 0 := by decide

theorem witness_write_lead_and_stub :
    ∀ p ∈ [Pos.leadDummy, .stub false],
      let s := within .write .wrLead p [.byte 0x00, .byte 0x80]
      s.cfg.ok = true ∧ noTick 2 s ∧ answering [0x00, 0x80] [] s ∧ s.pos = p := by decide

theorem witness_write_lead_and_stub_by_steps :
    ∀ p ∈ [Pos.leadDummy, .leadToken, .stub false, .stub true],
      let s := { within .write .wrLead p [.byte 0x00] with sched := [.block, .tick] }
      s.cfg.ok = true ∧ noTick 1 s ∧ s.card = [.byte 0x00] ∧ s.pos = p := by decide

theorem witness_data_byte_sent :
    ∀ k ∈ [(510 : BitVec 10), 511],
      let s := { within .write .wrData .sendData [.byte 0x00] with idx := k }
      s.cfg.ok = true ∧ noTick 1 s ∧ s.pos = .sendData ∧ s.blk < s.count ∧ s.idx.toNat < 512 ∧ s.card = [.byte 0x00] := by decide

/-- The four classes of 30 R79; 0x15 differs from the accepted pattern in one interpreted bit. -/
theorem witness_data_response :
    (∀ b ∈ [(0xE5 : Byte), 0x0B, 0x0D, 0x15],
      let s := within .write .wrDataResp .dresp [.byte b]
      s.cfg.ok = true ∧ s.pos = .dresp ∧ s.card = [.byte b])
    ∧ (0xE5 : Byte) &&& Config.default.drMask = Config.default.drAccept
    ∧ (0x0B : Byte) &&& Config.default.drMask = Config.default.drCrcErr
    ∧ (0x0D : Byte) &&& Config.default.drMask = Config.default.drWriteErr
    ∧ (0x15 : Byte) &&& Config.default.drMask
        ∉ [Config.default.drAccept, Config.default.drCrcErr, Config.default.drWriteErr] := by decide

theorem witness_busy_wait :
    ∀ b ∈ [(0xFF : Byte), 0xFE],
      let s := within .write .wrBusyWait .busyWait [.byte b]
      s.cfg.ok = true ∧ s.pos = .busyWait ∧ s.card = [.byte b] ∧ { s with cnt := 1 }.cnt ≠ 0 ∧ { s with cnt := 0 }.cnt = 0 := by
  decide

theorem noTick_of_empty {k : Nat} {s : State} (h : s.sched = []) : noTick k s := by simp [noTick, h]

theorem witness_read_block :
    let bs := List.replicate 512 (0xA5 : Byte)
    let s := within .read .rdData .data (bs.map .byte)
    s.cfg.ok = true ∧ Memory.wf s.hostbuf ∧ bs.length = 512 ∧ noTick 512 s ∧ s.pos = .data ∧ s.phase = .rdData ∧ s.idx = 0
    ∧ s.blk < s.count ∧ answering bs [] s := by
  refine ⟨rfl, by decide, List.length_replicate .., noTick_of_empty rfl, rfl, rfl, rfl, by decide,
    (List.append_nil _).symm⟩

theorem witness_write_block :
    let is := List.replicate 512 (0xFF : Byte)
    let s := within .write .wrData .sendData (is.map .byte)
    s.cfg.ok = true ∧ is.length = 512 ∧ noTick 512 s ∧ s.pos = .sendData ∧ s.idx = 0 ∧ s.blk < s.count ∧ answering is [] s := by
  refine ⟨rfl, List.length_replicate .., noTick_of_empty rfl, rfl, rfl, by decide,
    (List.append_nil _).symm⟩

/-- Between blocks, and after the last one: `blk` before its increment for a read, after it for a write. -/
theorem witness_blocks_follow :
    (let s := { within .read .rdCrc (.release (.done .cmd17)) [.byte 0x00] with cs := .deasserted }
     s.cfg.ok = true ∧ s.card = [.byte 0x00] ∧ s.pos = .release (.done .cmd17) ∧ s.blk.toNat + 1 = s.count.toNat
     ∧ { s with count := 2 }.blk.toNat + 1 < { s with count := 2 }.count.toNat)
    ∧ (let s := { within .write .wrBusyWait (.release (.done .cmd24)) [.byte 0x00] with cs := .deasserted, blk := 1 }
       s.cfg.ok = true ∧ s.card = [.byte 0x00] ∧ s.pos = .release (.done .cmd24) ∧ s.blk = s.count
       ∧ { s with count := 2 }.blk < { s with count := 2 }.count) := by decide

/-- The busy-wait of the last block ends and its release byte times out; and the countdown ends it. -/
theorem witness_failed_write :
    (let s := within .write .wrBusyWait .busyWait [.byte 0xFF, .timeout]
     s.cfg.ok = true ∧ noTick 3 s ∧ s.pos = .busyWait ∧ s.op = .write ∧ s.blk < s.count ∧ s.card = .byte 0xFF :: .timeout :: [])
    ∧ (let s := { within .write .wrBusyWait .busyWait [.byte 0xFE, .byte 0x00] with cnt := 0 }
       s.cfg.ok = true ∧ noTick 3 s ∧ s.pos = .busyWait ∧ s.op = .write ∧ s.blk < s.count ∧ (0xFE : Byte) ≠ 0xFF ∧ s.cnt = 0
       ∧ s.card = .byte 0xFE :: .byte 0x00 :: []) := by decide

/-- The last block of the largest operation of each addressing. -/
theorem witness_addresses :
    parametersOk .v2Block 1 0xFFFFFFFF = true ∧ (0xFFFFFFFE : Word) < 0xFFFFFFFF
    ∧ parametersOk .v1 0 0x00800000 = true ∧ (0x007FFFFF : Word) < 0x00800000 := by decide

theorem witness_init_admitted : State.reset.pos = .idle ∧ (session .v1).pos = .idle := by decide

theorem witness_clock_down :
    let s := starting .initReset .clkSlow []
    s.cfg.ok = true ∧ noTick 2 s ∧ s.pos = .clkSlow ∧ s.cs = .deasserted ∧ { s with cs := .asserted }.cs = .asserted
    ∧ noTick 1 { s with sched := [.block, .tick] } ∧ { s with pos := .csForce }.pos = .csForce := by decide

theorem witness_power_on :
    let is := List.replicate 10 (0x00 : Byte)
    let s := { State.reset with host := [.start 0 5 6 [0x77]], card := is.map .byte ++ [.timeout] }
    s.cfg.ok = true ∧ s.pos = .idle ∧ s.cs = .deasserted ∧ s.host = .start 0 5 6 [0x77] :: [] ∧ is.length = s.cfg.powerOnBytes
    ∧ noTick (is.length + 2) s ∧ answering is [.timeout] s := by decide

/-- The last power-on byte but one, and the last. -/
theorem witness_power_on_by_steps :
    ∀ n ∈ [8, 9],
      let s := { starting .initReset (.powerOn n) [.byte 0x00] with sched := [.block, .tick] }
      s.cfg.ok = true ∧ noTick 1 s ∧ s.pos = .powerOn n ∧ s.card = [.byte 0x00]
      ∧ (n + 1 < s.cfg.powerOnBytes ∨ n + 1 = s.cfg.powerOnBytes) := by decide

theorem witness_reset_answer :
    ∀ r ∈ [(0x01 : Byte), 0x00],
      let s := answered .initReset .cmd0 r
      s.cfg.ok = true ∧ s.pos = .release (.done .cmd0) ∧ s.op = .init ∧ s.card = [.byte 0xFF] ∧ s.r1 = r := by decide

/-- No error and echo, no error and no echo under each policy, and the smallest error byte. -/
theorem witness_voltage_check :
    (∀ r ∈ [(0x00 : Byte), 0x01, 0x02],
      let s := answered .initVoltageCheck .cmd8 r
      s.cfg.ok = true ∧ s.pos = .release (.done .cmd8) ∧ s.op = .init ∧ s.card = [.byte 0xFF] ∧ s.r1 = r)
    ∧ (0x123451AA : Word) &&& Config.default.vcheckMask = Config.default.vcheckArg &&& Config.default.vcheckMask
    ∧ (0x000000AA : Word) &&& Config.default.vcheckMask ≠ Config.default.vcheckArg &&& Config.default.vcheckMask
    ∧ Config.default.pVcheckMismatch = .fail ∧ permissive.ok = true ∧ permissive.pVcheckMismatch = .degrade := by decide

theorem witness_marker :
    ∀ p ∈ [Phase.initSdv2Wait, .initLegacyProbe, .initLegacyWait],
      let s := answered p .cmd55 0x05
      s.pos = .release (.done .cmd55) ∧ s.card = [.byte 0xFF] ∧ s.phase = p := by decide

theorem witness_op_cond_turn :
    (∀ c ∈ [Cmd.acmd41Hcs, .acmd41Legacy, .cmd1], ∀ r ∈ [(0x00 : Byte), 0x01],
      let s := answered .initLegacyWait c r
      s.cfg.ok = true ∧ s.op = .init ∧ s.card = [.byte 0xFF] ∧ s.pos = .release (.done c) ∧ s.phase = .initLegacyWait ∧ s.r1 = r
      ∧ { s with cnt := 1 }.cnt ≠ 0 ∧ { s with cnt := 0 }.cnt = 0) := by decide

theorem witness_ocr :
    (∀ r ∈ [(0x00 : Byte), 0x01],
      let s := answered .initOcrRead .cmd58 r
      s.cfg.ok = true ∧ s.pos = .release (.done .cmd58) ∧ s.op = .init ∧ s.card = [.byte 0xFF] ∧ s.r1 = r)
    ∧ (0xC0FF8000 : Word).getLsbD Config.default.ccsBit.val = true
    ∧ (0x80FF8000 : Word).getLsbD Config.default.ccsBit.val = false := by decide

/-- 0x05 is "illegal command"; 0x84 has the flag and is no response; 0x01 is neither. -/
theorem witness_legacy_probe :
    (∀ r ∈ [(0x05 : Byte), 0x84, 0x00, 0x01],
      let s := answered .initLegacyProbe .acmd41Legacy r
      s.cfg.ok = true ∧ s.pos = .release (.done .acmd41Legacy) ∧ s.op = .init ∧ s.phase = .initLegacyProbe
      ∧ s.card = [.byte 0xFF] ∧ s.r1 = r ∧ { s with cnt := 1 }.cnt ≠ 0 ∧ { s with cnt := 0 }.cnt = 0)
    ∧ (let illegal := fun r : Byte => r.getLsbD 7 = false ∧ r.getLsbD 2 = true
       illegal 0x05 ∧ ¬ illegal 0x84 ∧ ¬ illegal 0x01 ∧ ¬ illegal 0x00) := by decide

theorem witness_block_length :
    (∀ r ∈ [(0x00 : Byte), 0x01],
      let s := answered .initForceBlockLength .cmd16 r
      s.cfg.ok = true ∧ s.pos = .release (.done .cmd16) ∧ s.op = .init ∧ s.card = [.byte 0xFF] ∧ s.r1 = r)
    ∧ Config.default.pBlocklenFail = .fail ∧ permissive.ok = true ∧ permissive.pBlocklenFail = .degrade := by decide

theorem witness_speed_up :
    let s := starting .initSpeedUp .clkFast []
    s.cfg.ok = true ∧ noTick 2 s ∧ s.pos = .clkFast ∧ noTick 1 { s with sched := [.block, .tick] } := by decide

theorem witness_queries : State.reset.cfg.ok = true ∧ State.reset.pos = .idle ∧ noTick 1 State.reset := by decide

theorem witness_reserved_operations :
    (session .v1).cfg.ok = true ∧ (session .v1).pos = .idle ∧ noTick 1 (session .v1) := by decide

/-- After reset, and degraded. -/
theorem witness_no_session :
    State.reset.pos = .idle ∧ State.reset.ready = false ∧ (session .unknown).pos = .idle ∧ (session .unknown).version = .unknown
    ∧ State.reset.cfg.hasQsc = true := by decide

/-- At the last sector of each addressing, and one past it (V24.6, V24.13, V24.14, V24.17). -/
theorem witness_parameter_checks :
    (session .v1).pos = .idle ∧ (session .v1).ready = true ∧ (session .v1).version ≠ .unknown
    ∧ (let good := fun (v : Version) (sector count : Word) =>
         1 ≤ count.toNat ∧ sector.toNat + count.toNat ≤ (if v = .v2Block then 0xFFFFFFFF else 0x007FFFFF) + 1
       good .v1 0x007FFFFF 1 ∧ ¬ good .v1 0x00800000 1 ∧ ¬ good .v1 0 0 ∧ good .v2Block 1 0xFFFFFFFF
       ∧ ¬ good .v2Block 2 0xFFFFFFFF) := by decide

theorem witness_query_count :
    (session .v1).pos = .idle ∧ (session .v1).cfg.hasQsc = true ∧ (session .v1).ready = true ∧ (session .v1).version ≠ .unknown
    ∧ { Config.default with hasQsc := false }.hasQsc = false := by decide

/-- V42.3, V42.4 and V42.6. -/
theorem witness_csd :
    let s := fun a b c d : Byte => { within .qcount .qscCrc (.release (.done .cmd9)) [.byte 0xFF] with
      cs := .deasserted, csd := #v[a, 0, 0, 0, 0, 0, 0, b, c, d, 0, 0, 0, 0, 0, 0] }
    let size := fun t : State => (t.csd[7].toNat % 64) * 65536 + t.csd[8].toNat * 256 + t.csd[9].toNat
    (s 0x40 0x3F 0xFF 0xFE).pos = .release (.done .cmd9) ∧ (s 0x40 0x3F 0xFF 0xFE).op = .qcount
    ∧ (s 0x40 0x3F 0xFF 0xFE).card = [.byte 0xFF]
    ∧ (s 0x40 0x3F 0xFF 0xFE).csd[0].toNat / 64 = 1 ∧ size (s 0x40 0x3F 0xFF 0xFE) ≠ 0x3FFFFF
    ∧ (s 0x40 0x3F 0xFF 0xFF).csd[0].toNat / 64 = 1 ∧ size (s 0x40 0x3F 0xFF 0xFF) = 0x3FFFFF
    ∧ (s 0x00 0x00 0x3B 0x37).csd[0].toNat / 64 ≠ 1 := by decide

theorem witness_raise :
    let s := { within .read .rdCommand (.release (.raise .commandRejected)) [.byte 0xFF] with cs := .deasserted }
    s.pos = .release (.raise .commandRejected) ∧ s.card = [.byte 0xFF] ∧ s.op ≠ .init ∧ { s with op := .init }.op = .init := by
  decide

theorem witness_done :
    let s := { session .v1 with pos := .done, lastStatus := .ioError, fail := .commandRejected }
    s.cfg.ok = true ∧ noTick 1 s ∧ s.pos = .done := by decide

theorem witness_tick :
    State.reset.cfg.ok = true ∧ tickMoves { State.reset with sched := [.tick] } = true
    ∧ (within .read .rdTokenWait .tokenWait []).cfg.ok = true
    ∧ tickMoves { within .read .rdTokenWait .tokenWait [] with sched := [.tick], ms := 0xFFFFFFFF } = true := by decide

theorem witness_timeout_mechanisms :
    (let s := { within .read .rdCommand (.poll .cmd17) [.byte 0x00] with pollCnt := 1 }
     s.pos = .poll .cmd17 ∧ noTick 1 s ∧ (after (step s) fun t => t.cnt) = some 200)
    ∧ (let s := { within .read .rdTokenWait .tokenWait [.byte 0xFF] with cnt := 0 }
       s.pos = .tokenWait ∧ (after (step s) fun t => t.pos) = some (.deselect (.raise .dataTokenError)))
    ∧ (let s := { answered .initLegacyWait .cmd1 0x01 with cnt := 0 }
       s.pos = .release (.done .cmd1) ∧ (after (step s) fun t => t.fail) = some .timeout) := by decide

/-- A state for every clause: START, a command, and a polled byte of each row. -/
theorem witness_step_runs :
    (let s := { State.reset with host := [.start 1 7 8 [0xAA]] }
     s.cfg.ok = true ∧ s.cfg.decodable = true ∧ noTick 1 s ∧ s.pos = .idle ∧ s.host = .start 1 7 8 [0xAA] :: []
     ∧ decode s.cfg .host (encodeOp 1 7 8) = .ok (.read 7 8, []))
    ∧ (let s := starting .initReset (.issue .cmd0) []
       s.cfg.ok = true ∧ noTick 1 s ∧ s.pos = .issue .cmd0 ∧ s.arg = Cmd.cmd0.argument s.cfg s.arg
       ∧ decode s.cfg .frame (frameOf s.cfg (Cmd.cmd0.index s.cfg) s.arg).toList = .ok (.cmd0, []))
    ∧ (∀ b : Byte,
        let s := within .read .rdCommand (.poll .cmd17) [.byte b]
        noTick 1 s ∧ s.pos = .poll .cmd17 ∧ s.card = [.byte b])
    ∧ decode .default .r1 [0x7F] = .ok (.r1Valid 0x7F, []) ∧ decode .default .r1 [0x80] = .ok (.r1NotReady 0x80, []) :=
  ⟨by decide, by decide, fun _ => ⟨by simp [noTick, within, session, State.reset], rfl, rfl⟩, by decide, by decide⟩

/-- The token wait and the data response, for a byte of each row and for one that is none. -/
theorem witness_step_runs_classified :
    (∀ b : Byte,
      let s := within .read .rdTokenWait .tokenWait [.byte b]
      noTick 1 s ∧ s.pos = .tokenWait ∧ s.card = [.byte b])
    ∧ decode .default .token [0xFE] = .ok (.tokenStart, []) ∧ decode .default .token [0xFF] = .ok (.idleByte, [])
    ∧ decode .default .token [0xFD] = .error .notAToken
    ∧ (∀ b : Byte,
      let s := within .write .wrDataResp .dresp [.byte b]
      noTick 1 s ∧ s.pos = .dresp ∧ s.card = [.byte b])
    ∧ decode .default .dresp [0xE5] = .ok (.drespAccept 0xE5, []) ∧ decode .default .dresp [0x0B] = .ok (.drespCrcErr 0x0B, [])
    ∧ decode .default .dresp [0x0D] = .ok (.drespWriteErr 0x0D, []) ∧ decode .default .dresp [0x15] = .error .notADataResponse :=
  ⟨fun _ => ⟨by simp [noTick, within, session, State.reset], rfl, rfl⟩, by decide, by decide, by decide,
    fun _ => ⟨by simp [noTick, within, session, State.reset], rfl, rfl⟩, by decide, by decide, by decide, by decide⟩

/-- Every other position that sends the idle byte, a timeout, no answer yet, and the start token of a write. -/
theorem witness_step_runs_idle_byte :
    (∀ p ∈ [Pos.powerOn 9, .trail0 .cmd8, .trail1 .cmd8 0, .trail2 .cmd8 0 0, .trail3 .cmd58 0 0 0, .data, .crc true, .leadDummy,
        .stub true, .busyWait, .release (.raise .busyTimeout)],
      let s := within .write .wrBusyWait p [.byte 0x00]
      noTick 1 s ∧ sendsIdle s.pos = true ∧ s.pos ≠ .tokenWait ∧ s.pos ≠ .dresp ∧ s.pos ≠ .poll .cmd0)
    ∧ (∀ card ∈ [[], [Answer.timeout]],
      let s := within .read .rdTokenWait .tokenWait card
      noTick 1 s ∧ sendsIdle s.pos = true ∧ s.card.head? ≠ some (.byte 0xFF))
    ∧ (within .write .wrLead .leadToken [.byte 0x00]).pos = .leadToken := by decide

theorem witness_hardware_reset :
    let s := { session .v1 with host := [.reset] }
    s.cfg.ok = true ∧ noTick 1 s ∧ s.pos = .idle ∧ s.host = .reset :: [] := by decide

/-! ### States of the invariant -/

/-- A read of two blocks, the last byte of the first to come. -/
def reading : State :=
  { within .read .rdData .data [.byte 0xA5] with count := 2, idx := 511, busy := true, hostbuf := [(3, 0x11)] }

theorem reading_inv : Inv reading := by
  refine ⟨by decide, by decide, by decide, by decide, by decide, fun o h => ?_, fun _ => by decide, by decide, by decide, by decide,
    by decide, by decide, by decide, by decide, by decide, fun c h => ?_⟩
  · revert h; cases o <;> decide
  · revert h; cases c <;> decide

/-- A session, idle, the host about to ask for a write. -/
def asking : State := { session .v2Block with host := [.start 2 5 1 [0xFF, 0xFE]] }

theorem asking_inv : Inv asking := by
  refine ⟨by decide, by decide, by decide, by decide, by decide, fun o h => ?_, by decide, by decide, by decide, by decide,
    by decide, by decide, by decide, by decide, by decide, fun c h => ?_⟩
  · revert h; cases o <;> decide
  · revert h; cases c <;> decide

/-- An Initialize, the first power-on byte about to time out, chip-select released. -/
def starved : State := starting .initReset (.powerOn 0) [.timeout]

theorem starved_inv : Inv starved := by
  refine ⟨by decide, by decide, by decide, by decide, by decide, fun o h => ?_, by decide, by decide, by decide, by decide,
    by decide, by decide, by decide, by decide, by decide, fun c h => ?_⟩
  · revert h; cases o <;> decide
  · revert h; cases c <;> decide

/-- A read whose token wait times out inside its span. -/
def cutOff : State := within .read .rdTokenWait .tokenWait [.timeout]

theorem cutOff_inv : Inv cutOff := by
  refine ⟨by decide, by decide, by decide, by decide, by decide, fun o h => ?_, fun _ => by decide, by decide, by decide, by decide,
    by decide, by decide, by decide, by decide, by decide, fun c h => ?_⟩
  · revert h; cases o <;> decide
  · revert h; cases c <;> decide

/-- The end of an operation: the step to an idle block. -/
def ending : State := { session .v1 with pos := .done }

theorem ending_inv : Inv ending := by
  refine ⟨by decide, by decide, by decide, by decide, by decide, fun o h => ?_, by decide, by decide, by decide, by decide,
    by decide, by decide, by decide, by decide, by decide, fun c h => ?_⟩
  · revert h; cases o <;> decide
  · revert h; cases c <;> decide

theorem witness_bus_timeout :
    (Inv cutOff ∧ noTick 2 cutOff ∧ busOut cutOff = some 0xFF ∧ cutOff.card = .timeout :: [] ∧ cutOff.cs = .asserted)
    ∧ (Inv starved ∧ noTick 2 starved ∧ busOut starved = some 0xFF ∧ starved.card = .timeout :: [] ∧ starved.cs = .deasserted)
    ∧ (let s := { within .read .rdTokenWait .abort [] with sched := [.block, .tick] }
       s.cfg.ok = true ∧ noTick 1 s ∧ s.pos = .abort ∧ s.op ≠ .init ∧ { s with op := .init }.op = .init) :=
  ⟨⟨cutOff_inv, by decide⟩, ⟨starved_inv, by decide⟩, by decide⟩

/-- A write whose busy-wait reads its last byte. -/
def releasing : State := within .write .wrBusyWait .busyWait [.byte 0xFF]

theorem releasing_inv : Inv releasing := by
  refine ⟨by decide, by decide, by decide, by decide, by decide, fun o h => ?_, fun _ => by decide, by decide, by decide, by decide,
    by decide, by decide, by decide, by decide, by decide, fun c h => ?_⟩
  · revert h; cases o <;> decide
  · revert h; cases c <;> decide

/-- A write whose command was rejected, the release byte about to be answered. -/
def rejected : State := { within .write .wrCommand (.release (.raise .commandRejected)) [.byte 0xFF] with cs := .deasserted }

theorem rejected_inv : Inv rejected := by
  refine ⟨by decide, by decide, by decide, by decide, by decide, fun o h => ?_, fun _ => by decide, by decide, by decide, by decide,
    by decide, by decide, by decide, by decide, by decide, fun c h => ?_⟩
  · revert h; cases o <;> decide
  · revert h; cases c <;> decide

/-- The START of a write, the step that ends its busy-wait, and one that does not. -/
theorem witness_written_blocks_are_counted :
    (Inv asking ∧ tickMoves asking = false ∧ asking.pos = .idle ∧ asking.host = .start 2 5 1 [0xFF, 0xFE] :: []
      ∧ (after (step asking) fun t => (t.busy, t.blk)) = some (true, 0))
    ∧ (Inv releasing ∧ releasing.op = .write ∧ releasing.pos ≠ .idle ∧ tickMoves releasing = false
      ∧ releasing.pos = .busyWait ∧ releasing.card.head? = some (.byte 0xFF) ∧ (after (step releasing) fun t => t.blk) = some 1)
    ∧ (Inv rejected ∧ rejected.op = .write ∧ rejected.pos ≠ .idle ∧ rejected.pos ≠ .busyWait
      ∧ (after (step rejected) fun t => (t.fail, t.blk)) = some (.commandRejected, 0)) :=
  ⟨⟨asking_inv, by decide⟩, ⟨releasing_inv, by decide⟩, ⟨rejected_inv, by decide⟩⟩

/-- A read in flight, and the state before its DONE: the host has no read access. -/
theorem witness_no_read_access :
    (Inv reading ∧ reading.busy = true) ∧ (Inv ending ∧ ending.busy = false ∧ ending.pos = .done) :=
  ⟨⟨reading_inv, by decide⟩, ⟨ending_inv, by decide⟩⟩

theorem witness_one_event :
    Inv reading ∧ (after (step reading) fun t => (t.trace, t.phase)) = some ([.x 0xFF 0xA5], .rdCrc)
    ∧ (after (step { asking with host := [] }) fun t => t.trace) = some [] := ⟨reading_inv, by decide⟩

theorem witness_step_keeps_the_invariant :
    Inv reading ∧ (after (step reading) fun t => t.pos) = some (.crc false)
    ∧ Inv asking ∧ (after (step asking) fun t => t.pos) = some (.issue .cmd24)
    ∧ Inv starved ∧ (after (step starved) fun t => t.pos) = some .done :=
  ⟨reading_inv, by decide, asking_inv, by decide, starved_inv, by decide⟩

theorem witness_bus_order :
    Inv reading ∧ WireInv { reading with trace := [.cs .asserted, .start .read 0 2 []] }
    ∧ (after (step reading) fun t => t.pos) = some (.crc false) :=
  ⟨reading_inv, ⟨.selected, by decide⟩, by decide⟩

theorem witness_idle_block :
    Inv ending ∧ (after (step ending) fun t => (t.phase, t.ready)) = some (.idle, true)
    ∧ Inv starved ∧ (after (step starved) fun t => (t.phase, t.ready)) = some (.idle, false) :=
  ⟨ending_inv, by decide, starved_inv, by decide⟩

theorem witness_write_sets :
    (Inv reading ∧ noTick 1 reading ∧ reading.phase ≠ .idle ∧ (after (step reading) fun t => t.phase) = some .rdCrc)
    ∧ (Inv asking ∧ noTick 1 asking ∧ asking.pos = .idle ∧ asking.host = .start 2 5 1 [0xFF, 0xFE] :: []
      ∧ (after (step asking) fun t => t.sector) = some 5) :=
  ⟨⟨reading_inv, by decide⟩, ⟨asking_inv, by decide⟩⟩

/-- The byte of a READ at the last offset of its block, a byte of the host's own, and a START that presents another buffer. -/
theorem witness_buffer_changes :
    (Inv reading ∧ (after (step reading) fun t => (t.hostbuf.read 511, reading.hostbuf.read 511)) = some (0xA5, 0x00))
    ∧ (after (step { asking with host := [.poke 9 0x77] }) fun t => (t.hostbuf.read 9, asking.hostbuf.read 9)) =
        some (0x77, 0x00)
    ∧ (Inv asking ∧ (after (step asking) fun t => (t.hostbuf.read 0, t.hostbuf.read 1, t.hostbuf.read 2)) = some (0xFF, 0xFE, 0x00)
      ∧ (after (step asking) fun t => t.earlier) = some [[]]) :=
  ⟨⟨reading_inv, by decide⟩, by decide, ⟨asking_inv, by decide, by decide⟩⟩

end Sys2Proof.Tests
end

section
/-! PROOFS. A step on which no tick falls, and the exchange in it, as functions of the state before it; runs built from such
steps. -/

namespace Sys2Proof.Machine

theorem noTick_one {s : State} {k : Nat} (h : noTick (k + 1) s) : noTick 1 s :=
  fun m hm => h m (List.take_subset_take_left _ (by omega) hm)

theorem noTick_next {s t : State} {k : Nat} (h : noTick (k + 1) s) (ht : t.sched = s.sched.drop 1) : noTick k t := by
  have h' := noTick_scheduled h
  rw [scheduled_eq] at h'
  simpa [noTick, ht] using h'

/-- `s` after the scheduler's turn of a step on which no tick falls. -/
def turned (s : State) : State := { s with sched := s.sched.drop 1 }

/-- `s` with the sequencer moved to position `p`. -/
def moveTo (p : Pos) (s : State) : State := { s with pos := p }

/-- `s` after the exchange of a step on which no tick falls, the answer `i` to `o` used up. -/
def stepX (o i : Byte) (rest : List Answer) (s : State) : State := afterX o i rest (turned s)

@[simp] theorem moveTo_cfg (p : Pos) (s : State) : (moveTo p s).cfg = s.cfg := rfl
@[simp] theorem moveTo_sched (p : Pos) (s : State) : (moveTo p s).sched = s.sched := rfl
@[simp] theorem stepX_cfg (o i : Byte) (rest : List Answer) (s : State) : (stepX o i rest s).cfg = s.cfg := rfl
@[simp] theorem stepX_pos (o i : Byte) (rest : List Answer) (s : State) : (stepX o i rest s).pos = s.pos := rfl
@[simp] theorem stepX_sched (o i : Byte) (rest : List Answer) (s : State) : (stepX o i rest s).sched = s.sched.drop 1 := rfl

@[simp] theorem calling_cfg (c : Cmd) (a : Word) (s : State) : (calling c a s).cfg = s.cfg := rfl
@[simp] theorem calling_sched (c : Cmd) (a : Word) (s : State) : (calling c a s).sched = s.sched := rfl
@[simp] theorem started_cfg (o : Op) (sector count : Word) (s : State) : (started o sector count s).cfg = s.cfg := rfl

theorem exchanged_turned {s : State} {o i : Byte} {rest : List Answer} (hcard : s.card = .byte i :: rest) :
    exchanged o i (turned s) = stepX o i rest s := by
  simp [exchanged, emit, stepX, afterX, turned, hcard]

theorem step_turned {s : State} (hn : noTick 1 s) (hc : s.cfg.ok = true) : step s = blockStep (turned s) :=
  step_noTick hc hn

theorem step_idleByte {s : State} {i : Byte} {rest : List Answer} (hn : noTick 1 s) (hc : s.cfg.ok = true)
    (hp : sendsIdle s.pos = true) (hcard : s.card = .byte i :: rest) :
    step s = idleExchanged i (stepX s.cfg.idleByte i rest s) := by
  rw [step_turned hn hc, blockStep_byte (s := turned s) hp hcard, exchanged_turned hcard]
  rfl

/-- The first step of a run on which no tick falls, and the run after it. -/
theorem run_turn {k : Nat} {s t : State} {r : Result} (hn : noTick (k + 1) s) (hc : s.cfg.ok = true)
    (hs : noTick 1 s → s.cfg.ok = true → step s = .next t) (hrun : noTick k t → t.cfg.ok = true → run k t = r)
    (hsched : t.sched = s.sched.drop 1 := by simp) (hcfg : t.cfg = s.cfg := by simp) : run (k + 1) s = r := by
  rw [run_succ (hs (noTick_one hn) hc)]
  exact hrun (noTick_next hn hsched) (hcfg ▸ hc)

end Sys2Proof.Machine
end

section
/-! PROOFS. The one event of a step: what a received byte does is no event, an exchange makes one or waits, and so does every
step (O51). -/

namespace Sys2Proof.Machine

/-! ## The START of an operation -/

theorem admitBlocks_trace {body : State → State} (hb : ∀ u, (body u).trace = u.trace) (s : State) :
    (admitBlocks body s).trace = s.trace := by
  unfold admitBlocks
  split
  · split
    · exact hb s
    · rfl
  · rfl

theorem startOp_event {o : Op} {sector count : Word} {body : State → State} {s : State} (hp : s.pos = .idle)
    (hb : ∀ u, (body u).trace = u.trace) :
    ∃ t, startOp o sector count body s = .next t ∧ t.trace = .start o sector count (startData o s) :: s.trace :=
  ⟨_, startOp_idle hp, hb _⟩

/-- Every operation code (30 R82), executed from an idle block: the one event is its START. -/
theorem exec_decodeOp {s : State} (hp : s.pos = .idle) (op : BitVec 3) (sector count : Word) :
    ∃ t, exec (decodeOp op sector count) s = .next t ∧
      t.trace = .start (Op.ofCode op) sector count (startData (Op.ofCode op) s) :: s.trace := by
  match op with
  | 0 => exact startOp_event hp fun _ => rfl
  | 1 => exact startOp_event hp (admitBlocks_trace fun _ => rfl)
  | 2 => exact startOp_event hp (admitBlocks_trace fun _ => rfl)
  | 3 => simp only [decodeOp, exec, execGetver]; exact startOp_event hp fun _ => rfl
  | 4 =>
    simp only [decodeOp, exec, execQcount]
    refine startOp_event hp fun u => ?_
    split
    · split <;> rfl
    · rfl
  | 5 => simp only [decodeOp, exec, execQsize]; exact startOp_event hp fun _ => rfl
  | 6 => exact startOp_event hp fun _ => rfl
  | 7 => exact startOp_event hp fun _ => rfl

/-! ## What a received byte does is no event -/

@[simp] theorem powerOnByte_trace (sent : Nat) (s : State) : (powerOnByte sent s).trace = s.trace := by
  unfold powerOnByte
  split <;> rfl

@[simp] theorem afterPoll_trace (c : Cmd) (s : State) : (afterPoll c s).trace = s.trace := by
  rw [(afterPoll_frame c s).1]

@[simp] theorem pollByte_trace (c : Cmd) (b : Byte) (s : State) : (pollByte c b s).trace = s.trace := by
  unfold pollByte
  dsimp only
  split
  · exact afterPoll_trace c _
  · rfl

@[simp] theorem tokenByte_trace (b : Byte) (s : State) : (tokenByte b s).trace = s.trace := by
  unfold tokenByte
  split
  · split <;> rfl
  · rfl
  · split <;> rfl

@[simp] theorem csdByte_trace (b : Byte) (s : State) : (csdByte b s).trace = s.trace := by
  unfold csdByte
  dsimp only
  split <;> rfl

theorem afterDataByte_trace (s : State) : (afterDataByte s).trace = s.trace := by
  unfold afterDataByte
  split <;> rfl

theorem dataByte_trace {b : Byte} {s t : State} (h : dataByte b s = .next t) : t.trace = s.trace := by
  unfold dataByte at h
  split at h
  · cases h
    exact csdByte_trace b s
  · cases (withinBuffer_next h).2
    exact afterDataByte_trace _

@[simp] theorem lastTrailingByte_trace (c : Cmd) (t0 t1 t2 t3 : Byte) (s : State) :
    (lastTrailingByte c t0 t1 t2 t3 s).trace = s.trace := rfl

@[simp] theorem crcByteReceived_trace (second : Bool) (s : State) : (crcByteReceived second s).trace = s.trace := by
  unfold crcByteReceived
  split <;> rfl

@[simp] theorem afterSentByte_trace (s : State) : (afterSentByte s).trace = s.trace := by
  unfold afterSentByte
  split <;> rfl

@[simp] theorem afterStub_trace (second : Bool) (s : State) : (afterStub second s).trace = s.trace := by
  unfold afterStub
  split <;> rfl

@[simp] theorem drespByte_trace (b : Byte) (s : State) : (drespByte b s).trace = s.trace := by
  unfold drespByte
  dsimp only
  split <;> rfl

@[simp] theorem busyByte_trace (b : Byte) (s : State) : (busyByte b s).trace = s.trace := by
  unfold busyByte
  split
  · rfl
  · split <;> rfl

@[simp] theorem afterRelease_trace (a : After) (s : State) : (afterRelease a s).trace = s.trace := by
  rw [afterRelease_frame]

@[simp] theorem raiseFail_trace (f : Fail) (s : State) : (raiseFail f s).trace = s.trace := by
  rw [raiseFail_frame]

theorem idleExchanged_trace {b : Byte} {s t : State} (h : idleExchanged b s = .next t) : t.trace = s.trace := by
  cases hp : s.pos <;> simp only [idleExchanged, hp, Host.Outcome.next.injEq, reduceCtorEq] at h
  case data => exact dataByte_trace h
  all_goals subst h; simp

@[simp] theorem afterFrameByte_trace (c : Cmd) (k : Fin 6) (s : State) : (afterFrameByte c k s).trace = s.trace := by
  unfold afterFrameByte
  split <;> rfl

theorem clockDown_trace (s : State) : (clockDown s).trace = .clk .slow :: s.trace := by
  unfold clockDown
  dsimp only
  split <;> rfl

/-! ## Exchanges and their events -/

theorem timedOut_trace (o : Byte) (s : State) : (timedOut o s).trace = .xt o :: s.trace := by
  rw [timedOut_frame]

/-- An exchange waits, or makes its one event. -/
theorem exchange_event {o : Byte} {k : Byte → State → Result} {s t : State}
    (hk : ∀ {i u v}, k i u = .next v → v.trace = u.trace) (h : exchange o k s = .next t) :
    (s.card = [] ∧ t = s) ∨ ∃ e, t.trace = e :: s.trace := by
  rcases exchange_cases h with hwait | ⟨i, rest, -, hi⟩ | ⟨rest, -, rfl⟩
  · exact .inl hwait
  · exact .inr ⟨_, hk hi⟩
  · exact .inr ⟨_, timedOut_trace o s⟩

theorem blockStep_sendsIdle {s : State} (h : sendsIdle s.pos = true) :
    blockStep s = exchange s.cfg.idleByte idleExchanged s := by
  match hcard : s.card with
  | [] => rw [blockStep_wait h hcard, exchange_wait hcard]
  | .byte i :: _ => rw [blockStep_byte h hcard, exchange_byte hcard]
  | .timeout :: _ => rw [blockStep_timeout h hcard, exchange_timeout hcard]

/-- The ways a step of the block makes no event: an exchange not answered yet, an idle block with nothing asked of it, a byte of the
host's own buffer, a hardware reset (log 1, 14, 15). -/
def silent (s t : State) : Prop :=
  (s.card = [] ∧ busOut s ≠ none ∧ t = s) ∨
  (s.pos = .idle ∧ s.host = [] ∧ t = s) ∨
  (s.pos = .idle ∧ ∃ m hs, s.host = m :: hs ∧ t.host = hs ∧ ((∃ off b, m = .poke off b) ∨ m = .reset))

theorem exchange_event_or_silent {o : Byte} {k : Byte → State → Result} {s t : State} (ho : busOut s ≠ none)
    (hk : ∀ {i u v}, k i u = .next v → v.trace = u.trace) (h : exchange o k s = .next t) :
    (∃ e, t.trace = e :: s.trace) ∨ (t.trace = s.trace ∧ silent s t) := by
  rcases exchange_event hk h with ⟨hcard, rfl⟩ | hev
  · exact .inr ⟨rfl, .inl ⟨hcard, ho, rfl⟩⟩
  · exact .inl hev

theorem blockStep_start_event {s : State} {op : BitVec 3} {sector count : Word} {buffer : List Byte} {hs : List HostMove}
    (hp : s.pos = .idle) (hh : s.host = .start op sector count buffer :: hs) :
    ∃ t, blockStep s = .next t ∧ ∃ e, t.trace = e :: s.trace := by
  rw [blockStep_start hp hh, presented_frame]
  obtain ⟨t, ht, htr⟩ := exec_decodeOp (s := { s with host := hs, hostbuf := _, earlier := _ }) hp op sector count
  exact ⟨t, ht, _, htr⟩

theorem blockStep_idle_event {s t : State} (hp : s.pos = .idle) (h : blockStep s = .next t) :
    (∃ e, t.trace = e :: s.trace) ∨ (t.trace = s.trace ∧ silent s t) := by
  match hh : s.host with
  | [] =>
    rw [blockStep_idle hp hh] at h; cases h
    exact .inr ⟨rfl, .inr (.inl ⟨hp, hh, rfl⟩)⟩
  | .poke off b :: hs =>
    rw [blockStep_poke hp hh] at h; cases h
    exact .inr ⟨rfl, .inr (.inr ⟨hp, _, hs, hh, rfl, .inl ⟨off, b, rfl⟩⟩)⟩
  | .reset :: hs =>
    rw [blockStep_hardwareReset hp hh] at h; cases h
    exact .inr ⟨rfl, .inr (.inr ⟨hp, _, hs, hh, rfl, .inr rfl⟩)⟩
  | .start op sector count buffer :: hs =>
    obtain ⟨u, hu, hev⟩ := blockStep_start_event hp hh
    rw [hu] at h; cases h
    exact .inl hev

theorem blockStep_event {s t : State} (h : blockStep s = .next t) :
    (∃ e, t.trace = e :: s.trace) ∨ (t.trace = s.trace ∧ silent s t) := by
  by_cases hx : sendsIdle s.pos = true
  · rw [blockStep_sendsIdle hx] at h
    refine exchange_event_or_silent ?_ idleExchanged_trace h
    cases hp : s.pos <;> simp_all [sendsIdle, busOut]
  cases hp : s.pos <;> simp only [hp, sendsIdle, not_true_eq_false] at hx
  case idle => exact blockStep_idle_event hp h
  case frame c k =>
    rw [blockStep_frame hp] at h
    refine exchange_event_or_silent (by simp [busOut, hp]) ?_ h
    intro i u v hv; cases hv; simp
  case leadToken =>
    rw [blockStep_leadToken hp] at h
    refine exchange_event_or_silent (by simp [busOut, hp]) ?_ h
    intro i u v hv; cases hv; rfl
  case sendData =>
    rw [blockStep_sendData hp] at h
    refine exchange_event_or_silent (by simp [busOut, hp]) ?_ (withinBuffer_next h).2
    intro i u v hv; cases hv; simp
  all_goals left
  case issue c => rw [blockStep_issue hp, exec_command _ hp] at h; cases h; exact ⟨_, rfl⟩
  case deselect a => rw [blockStep_deselect hp] at h; cases h; exact ⟨_, rfl⟩
  case abort => rw [blockStep_abort hp] at h; cases h; exact ⟨_, raiseFail_trace _ _⟩
  case clkSlow => rw [blockStep_clkSlow hp] at h; cases h; exact ⟨_, clockDown_trace s⟩
  case csForce => rw [blockStep_csForce hp] at h; cases h; exact ⟨_, rfl⟩
  case clkFast => rw [blockStep_clkFast hp] at h; cases h; exact ⟨_, rfl⟩
  case done => rw [blockStep_done hp] at h; cases h; exact ⟨_, rfl⟩

/-- Settles O51: a tick is an event, and a step of the block makes one at every position but the silent ones. The invariant is not
needed. -/
theorem oneEventPerStep : Obligations.OneEventPerStep := by
  intro s t _ h
  obtain ⟨-, ⟨-, rfl⟩ | ⟨hmover, hb⟩⟩ := step_cases h
  · exact .inl ⟨_, rfl⟩
  · rw [scheduled_eq] at hb
    exact (blockStep_event hb).imp_right fun ⟨htr, hs⟩ => ⟨htr, hmover, hs⟩

end Sys2Proof.Machine
end

section
/-! PROOFS. Every state of the invariant has a next state (O55). -/

namespace Sys2Proof.Machine

theorem exchange_answers {o : Byte} {k : Byte → State → Result} {s : State}
    (h : ∀ i, ∃ t, k i (exchanged o i s) = .next t) : ∃ t, exchange o k s = .next t := by
  match hcard : s.card with
  | [] => exact ⟨_, exchange_wait hcard⟩
  | .byte i :: _ => rw [exchange_byte hcard]; exact h i
  | .timeout :: _ => exact ⟨_, exchange_timeout hcard⟩

theorem Inv.bufOffset_inside {s : State} (h : Inv s) (hp : s.phase.op? = some .read ∨ s.phase.op? = some .write)
    (hb : blockCounted s.pos = false) (hi : s.idx.toNat < 512) : bufOffset s.cfg s.blk s.idx < bufSize s.cfg s.count := by
  obtain ⟨-, hlt, -⟩ := h.blocks hp
  obtain ⟨hlen, -⟩ := Config.ok_facts h.config
  exact bufOffset_lt hlen (hlt hb) hi

/-- A byte of a data phase has its place, in `csd` or inside the buffer. -/
theorem Inv.dataByte_answers {s : State} (h : Inv s) (hp : s.pos = .data) (b : Byte) : ∃ t, dataByte b s = .next t := by
  by_cases hq : s.phase = .qscData
  · exact ⟨_, if_pos hq⟩
  · have hplace := h.place
    have hr : s.phase = .rdData := by simpa [hp, posPlace, hq] using hplace
    obtain ⟨hidx, -, -⟩ := h.index
    have hin := h.bufOffset_inside (.inl (by simp [hr, Phase.op?])) (by simp [hp, blockCounted]) (hidx hp hr)
    exact ⟨_, (if_neg hq).trans (withinBuffer_inside hin)⟩

theorem Inv.idleExchanged_answers {s : State} (h : Inv s) (hx : sendsIdle s.pos = true) (b : Byte) :
    ∃ t, idleExchanged b s = .next t := by
  cases hp : s.pos <;> simp only [hp, sendsIdle, Bool.false_eq_true] at hx <;> simp only [idleExchanged, hp]
  case data => exact h.dataByte_answers hp b
  all_goals exact ⟨_, rfl⟩

theorem Inv.sendDataByte_answers {s : State} (h : Inv s) (hp : s.pos = .sendData) : ∃ t, sendDataByte s = .next t := by
  have hplace := h.place
  have hw : s.phase = .wrData := by simpa [hp, posPlace] using hplace
  obtain ⟨-, -, hidx⟩ := h.index
  have hin := h.bufOffset_inside (.inr (by simp [hw, Phase.op?])) (by simp [hp, blockCounted]) (hidx hp)
  rw [sendDataByte, withinBuffer_inside hin]
  exact exchange_answers fun i => ⟨_, rfl⟩

theorem blockStep_idle_answers {s : State} (hp : s.pos = .idle) : ∃ t, blockStep s = .next t := by
  match hh : s.host with
  | [] => exact ⟨_, blockStep_idle hp hh⟩
  | .poke _ _ :: _ => exact ⟨_, blockStep_poke hp hh⟩
  | .reset :: _ => exact ⟨_, blockStep_hardwareReset hp hh⟩
  | .start _ _ _ _ :: _ =>
    obtain ⟨t, ht, -⟩ := blockStep_start_event hp hh
    exact ⟨t, ht⟩

theorem Inv.blockStep_answers {s : State} (h : Inv s) : ∃ t, blockStep s = .next t := by
  by_cases hx : sendsIdle s.pos = true
  · rw [blockStep_sendsIdle hx]
    exact exchange_answers fun i => (h.exchanged _ i).idleExchanged_answers hx i
  cases hp : s.pos <;> simp only [hp, sendsIdle, not_true_eq_false] at hx
  case idle => exact blockStep_idle_answers hp
  case sendData => rw [blockStep_sendData hp]; exact h.sendDataByte_answers hp
  case frame c k => rw [blockStep_frame hp]; exact exchange_answers fun i => ⟨_, rfl⟩
  case leadToken => rw [blockStep_leadToken hp]; exact exchange_answers fun i => ⟨_, rfl⟩
  case issue c => rw [blockStep_issue hp]; exact ⟨_, exec_command _ hp⟩
  case deselect a => exact ⟨_, blockStep_deselect hp⟩
  case abort => exact ⟨_, blockStep_abort hp⟩
  case clkSlow => exact ⟨_, blockStep_clkSlow hp⟩
  case csForce => exact ⟨_, blockStep_csForce hp⟩
  case clkFast => exact ⟨_, blockStep_clkFast hp⟩
  case done => exact ⟨_, blockStep_done hp⟩

/-- Settles O55: a tick always has its step, and a step of the block by its position; the only partial steps, the data bytes at a
buffer offset, are inside the buffer by the invariant's block and index bounds. -/
theorem noStateOfTheInvariantStops : Obligations.NoStateOfTheInvariantStops := by
  intro s h
  cases hm : tickMoves s with
  | true => exact ⟨_, step_tick h.config hm⟩
  | false =>
    rw [step_block h.config hm]
    exact h.scheduled.blockStep_answers

end Sys2Proof.Machine
end

section
/-! PROOFS. The single steps of the trailing bytes, the CRC bytes, the lead and stub bytes of a write, the clock step and the
power-on bytes, each with its run (O11, O16, O19, O28, O29). -/

namespace Sys2Proof.Machine

/-! ## The trailing bytes -/

section
variable {s : State} {b : Byte} {rest : List Answer} (hn : noTick 1 s) (hc : s.cfg.ok = true) (hcard : s.card = .byte b :: rest)
include hn hc hcard

theorem step_trail0 {c : Cmd} (hp : s.pos = .trail0 c) :
    step s = .next (moveTo (.trail1 c b) (stepX s.cfg.idleByte b rest s)) := by
  rw [step_idleByte hn hc (by simp [hp, sendsIdle]) hcard]
  simp [idleExchanged, moveTo, hp]

theorem step_trail1 {c : Cmd} {t0 : Byte} (hp : s.pos = .trail1 c t0) :
    step s = .next (moveTo (.trail2 c t0 b) (stepX s.cfg.idleByte b rest s)) := by
  rw [step_idleByte hn hc (by simp [hp, sendsIdle]) hcard]
  simp [idleExchanged, moveTo, hp]

theorem step_trail2 {c : Cmd} {t0 t1 : Byte} (hp : s.pos = .trail2 c t0 t1) :
    step s = .next (moveTo (.trail3 c t0 t1 b) (stepX s.cfg.idleByte b rest s)) := by
  rw [step_idleByte hn hc (by simp [hp, sendsIdle]) hcard]
  simp [idleExchanged, moveTo, hp]

theorem step_trail3 {c : Cmd} {t0 t1 t2 : Byte} (hp : s.pos = .trail3 c t0 t1 t2) :
    step s = .next { stepX s.cfg.idleByte b rest s with trailing := packWord t0 t1 t2 b, pos := .deselect (.done c) } := by
  rw [step_idleByte hn hc (by simp [hp, sendsIdle]) hcard]
  simp [idleExchanged, lastTrailingByte, deselect, hp]

end

/-- Settles O11: the run is its four single steps. -/
theorem trailingBytesArePacked : Obligations.TrailingBytesArePacked := by
  refine ⟨fun c s t0 t1 t2 t3 rest hc hn hp hcard => ?_, fun c s t0 t1 t2 b rest hc hn hcard =>
    ⟨step_trail0 hn hc hcard, step_trail1 hn hc hcard, step_trail2 hn hc hcard, step_trail3 hn hc hcard⟩⟩
  refine run_turn hn hc (step_trail0 · · hcard hp) fun hn hc => ?_
  refine run_turn hn hc (step_trail1 · · rfl rfl) fun hn hc => ?_
  refine run_turn hn hc (step_trail2 · · rfl rfl) fun hn hc => ?_
  refine run_turn hn hc (step_trail3 · · rfl rfl) fun _ _ => ?_
  simp [run_zero, stepX, afterX, turned, moveTo, receiving, packWord]

/-! ## The CRC bytes of a data packet -/

section
variable {s : State} {b : Byte} {rest : List Answer} (hn : noTick 1 s) (hc : s.cfg.ok = true) (hcard : s.card = .byte b :: rest)
include hn hc hcard

theorem step_crcFirst (hp : s.pos = .crc false) :
    step s = .next (moveTo (.crc true) (stepX s.cfg.idleByte b rest s)) := by
  rw [step_idleByte hn hc (by simp [hp, sendsIdle]) hcard]
  simp [idleExchanged, crcByteReceived, moveTo, hp]

theorem step_crcSecond (hp : s.pos = .crc true) :
    step s = .next { stepX s.cfg.idleByte b rest s with
      pos := .deselect (.done (if s.phase = .qscCrc then .cmd9 else .cmd17)) } := by
  rw [step_idleByte hn hc (by simp [hp, sendsIdle]) hcard]
  simp only [idleExchanged, stepX_pos, hp]
  rfl

end

/-- Settles O16: the run is its two single steps. -/
theorem crcBytesAreDiscarded : Obligations.CrcBytesAreDiscarded := by
  refine ⟨fun s c0 c1 rest hc hn hp _ hcard => ?_, fun s b rest hc hn _ hcard =>
    ⟨step_crcFirst hn hc hcard, step_crcSecond hn hc hcard⟩⟩
  refine run_turn hn hc (step_crcFirst · · hcard hp) fun hn hc => ?_
  refine run_turn hn hc (step_crcSecond · · rfl rfl) fun _ _ => ?_
  simp [run_zero, stepX, afterX, turned, moveTo, receiving]

/-! ## What surrounds the data of a write -/

section
variable {s : State} {i : Byte} {rest : List Answer} (hn : noTick 1 s) (hc : s.cfg.ok = true) (hcard : s.card = .byte i :: rest)
include hn hc hcard

theorem step_leadDummy (hp : s.pos = .leadDummy) :
    step s = .next (moveTo .leadToken (stepX s.cfg.idleByte i rest s)) := by
  rw [step_idleByte hn hc (by simp [hp, sendsIdle]) hcard]
  simp [idleExchanged, moveTo, hp]

theorem step_leadToken (hp : s.pos = .leadToken) :
    step s = .next { stepX s.cfg.tokenStart i rest s with phase := .wrData, idx := 0, pos := .sendData } := by
  rw [step_turned hn hc, blockStep_leadToken (s := turned s) hp, exchange_byte (s := turned s) hcard, exchanged_turned hcard]
  rfl

theorem step_stubFirst (hp : s.pos = .stub false) :
    step s = .next (moveTo (.stub true) (stepX s.cfg.idleByte i rest s)) := by
  rw [step_idleByte hn hc (by simp [hp, sendsIdle]) hcard]
  simp [idleExchanged, afterStub, moveTo, hp]

theorem step_stubSecond (hp : s.pos = .stub true) :
    step s = .next { stepX s.cfg.idleByte i rest s with phase := .wrDataResp, pos := .dresp } := by
  rw [step_idleByte hn hc (by simp [hp, sendsIdle]) hcard]
  simp [idleExchanged, afterStub, hp]

end

/-- Settles O19: each run is its two single steps. -/
theorem writeLeadAndStub : Obligations.WriteLeadAndStub := by
  refine ⟨fun s i0 i1 rest hc hn hcard => ⟨fun hp => ?lead, fun hp => ?stub⟩, fun s i rest hc hn hcard =>
    ⟨step_leadDummy hn hc hcard, step_leadToken hn hc hcard, step_stubFirst hn hc hcard, step_stubSecond hn hc hcard⟩⟩
  case lead =>
    refine run_turn hn hc (step_leadDummy · · hcard hp) fun hn hc => ?_
    refine run_turn hn hc (step_leadToken · · rfl rfl) fun _ _ => ?_
    simp [run_zero, stepX, afterX, turned, moveTo]
  case stub =>
    refine run_turn hn hc (step_stubFirst · · hcard hp) fun hn hc => ?_
    refine run_turn hn hc (step_stubSecond · · rfl rfl) fun _ _ => ?_
    simp [run_zero, stepX, afterX, turned, moveTo]

/-! ## The clock step and the power-on bytes -/

section
variable {s : State} (hn : noTick 1 s) (hc : s.cfg.ok = true)
include hn hc

theorem step_clkSlow_released (hp : s.pos = .clkSlow) (hcs : s.cs = .deasserted) : step s = .next { s with
    clkTier := .slow, pos := .powerOn 0, sched := s.sched.drop 1, trace := .clk .slow :: s.trace } := by
  rw [step_turned hn hc, blockStep_clkSlow (s := turned s) hp]
  simp [clockDown, driveClk, emit, turned, hcs]

theorem step_clkSlow_selected (hp : s.pos = .clkSlow) (hcs : s.cs = .asserted) : step s = .next { s with
    clkTier := .slow, pos := .csForce, sched := s.sched.drop 1, trace := .clk .slow :: s.trace } := by
  rw [step_turned hn hc, blockStep_clkSlow (s := turned s) hp]
  simp [clockDown, driveClk, emit, turned, hcs]

theorem step_csForce (hp : s.pos = .csForce) : step s = .next { s with
    cs := .deasserted, pos := .powerOn 0, sched := s.sched.drop 1, trace := .cs .deasserted :: s.trace } := by
  rw [step_turned hn hc, blockStep_csForce (s := turned s) hp]
  rfl

theorem step_startInit {sector count : Word} {buffer : List Byte} {hs : List HostMove} (hp : s.pos = .idle)
    (hh : s.host = .start 0 sector count buffer :: hs) : step s = .next { started .init sector count s with
      ready := false, version := .unknown, degraded := false, phase := .initReset, pos := .clkSlow, host := hs,
      sched := s.sched.drop 1 } := by
  rw [step_turned hn hc, blockStep_start (s := turned s) hp hh, presented_other (by decide) (by decide)]
  exact startOp_idle hp

end

section
variable {s : State} {sent : Nat} {i : Byte} {rest : List Answer} (hn : noTick 1 s) (hc : s.cfg.ok = true)
  (hp : s.pos = .powerOn sent)
include hn hc hp

theorem step_powerOn_more (hmore : sent + 1 < s.cfg.powerOnBytes) (hcard : s.card = .byte i :: rest) :
    step s = .next (moveTo (.powerOn (sent + 1)) (stepX s.cfg.idleByte i rest s)) := by
  rw [step_idleByte hn hc (by simp [hp, sendsIdle]) hcard]
  simp [idleExchanged, powerOnByte, moveTo, hp, hmore]

theorem step_powerOn_last (hlast : sent + 1 = s.cfg.powerOnBytes) (hcard : s.card = .byte i :: rest) :
    step s = .next (calling .cmd0 0 (stepX s.cfg.idleByte i rest s)) := by
  rw [step_idleByte hn hc (by simp [hp, sendsIdle]) hcard]
  simp [idleExchanged, powerOnByte, issueConst, issue, Cmd.argument, calling, hp, hlast]

end

/-- Settles O28: the forced deassert is a second step, reached only where chip-select is asserted. -/
theorem clockDownAlwaysEmits : Obligations.ClockDownAlwaysEmits := by
  refine ⟨fun s hc hn hp => ⟨step_clkSlow_released hn hc hp, fun hcs hn2 => ?_⟩, fun s hc hn =>
    ⟨step_clkSlow_selected hn hc, step_csForce hn hc⟩⟩
  refine run_turn hn2 hc (step_clkSlow_selected · · hp hcs) fun hn hc => ?_
  refine run_turn hn hc (step_csForce · · rfl) fun _ _ => ?_
  simp [run_zero]

/-- The power-on bytes that are left, whatever comes back, and the call of the reset command after the last. -/
theorem run_powerOn {is : List Byte} {sent : Nat} {s : State} {rest : List Answer} (hc : s.cfg.ok = true)
    (hp : s.pos = .powerOn sent) (hlt : sent < s.cfg.powerOnBytes) (hleft : sent + is.length = s.cfg.powerOnBytes)
    (hn : noTick is.length s) (hcard : answering is rest s) :
    run is.length s = .next (calling .cmd0 0 { s with
      card := rest, sched := s.sched.drop is.length, trace := receiving s.cfg.idleByte is ++ s.trace }) := by
  induction is generalizing sent s with
  | nil => simp only [List.length_nil] at hleft; omega
  | cons i is ih =>
    rw [List.length_cons] at hleft
    rcases Nat.lt_or_ge (sent + 1) s.cfg.powerOnBytes with hmore | hlast
    · refine run_turn hn hc (step_powerOn_more · · hp hmore hcard) fun hn hc => ?_
      rw [ih hc rfl (by simpa using hmore) (by simp; omega) hn rfl]
      simp [calling, moveTo, stepX, afterX, turned, receiving, Nat.add_comm]
    · obtain rfl : is = [] := List.length_eq_zero_iff.1 (by omega)
      refine run_turn hn hc (step_powerOn_last · · hp (by omega) hcard) fun _ _ => ?_
      simp [run_zero, calling, stepX, afterX, turned, receiving]

/-- Settles O29: START and CLK(Slow), then the power-on bytes by induction on those that are left. -/
theorem powerOnBytesPrecedeTheResetCommand : Obligations.PowerOnBytesPrecedeTheResetCommand := by
  constructor
  · intro s sector count buffer hs is rest hc hp hcs hh hlen hn hcard
    obtain ⟨-, hbytes, -⟩ := Config.ok_budgets hc
    refine run_turn hn hc (step_startInit · · hp hh) fun hn hc => ?_
    refine run_turn hn hc (step_clkSlow_released · · rfl hcs) fun hn hc => ?_
    rw [run_powerOn hc rfl (by simp; omega) (by simp; omega) hn hcard]
    simp [calling, started, startData, Nat.add_comm]
  · exact fun s sent i rest hc hn hp hcard => ⟨(step_powerOn_more hn hc hp · hcard), (step_powerOn_last hn hc hp · hcard)⟩

end Sys2Proof.Machine
end

section
/-! PROOFS. `deselect()` and its release byte (O12). -/

namespace Sys2Proof.Machine

/-! ## The tail after a release byte reads no event -/

theorem expired_withTrace (tr : List Event) (s : State) : expired { s with trace := tr } = expired s := rfl

theorem raiseFail_withTrace (f : Fail) (tr : List Event) (s : State) :
    raiseFail f { s with trace := tr } = { raiseFail f s with trace := tr } := by
  unfold raiseFail
  dsimp only
  split <;> rfl

theorem beginForceBlockLength_withTrace (tr : List Event) (s : State) :
    beginForceBlockLength { s with trace := tr } = { beginForceBlockLength s with trace := tr } := by
  unfold beginForceBlockLength
  dsimp only
  split <;> rfl

theorem afterReset_withTrace (tr : List Event) (s : State) :
    afterReset { s with trace := tr } = { afterReset s with trace := tr } := by
  unfold afterReset
  dsimp only
  split
  · rfl
  · exact raiseFail_withTrace _ tr s

theorem afterVoltageCheck_withTrace (tr : List Event) (s : State) :
    afterVoltageCheck { s with trace := tr } = { afterVoltageCheck s with trace := tr } := by
  unfold afterVoltageCheck
  dsimp only
  split
  · split
    · rfl
    · split
      · exact raiseFail_withTrace _ tr s
      · rfl
  · rfl

theorem afterMarker_withTrace (tr : List Event) (s : State) :
    afterMarker { s with trace := tr } = { afterMarker s with trace := tr } := by
  unfold afterMarker
  dsimp only
  split
  · rfl
  · split <;> rfl

theorem afterSdv2OpCond_withTrace (tr : List Event) (s : State) :
    afterSdv2OpCond { s with trace := tr } = { afterSdv2OpCond s with trace := tr } := by
  unfold afterSdv2OpCond
  rw [expired_withTrace]
  dsimp only
  split
  · rfl
  · split
    · exact raiseFail_withTrace _ tr s
    · rfl

theorem legacySdTest_withTrace (tr : List Event) (s : State) :
    legacySdTest { s with trace := tr } = { legacySdTest s with trace := tr } := by
  unfold legacySdTest
  rw [expired_withTrace]
  dsimp only
  split
  · exact beginForceBlockLength_withTrace tr { s with version := .v1 }
  · split
    · exact raiseFail_withTrace _ tr s
    · rfl

theorem afterLegacyOpCond_withTrace (tr : List Event) (s : State) :
    afterLegacyOpCond { s with trace := tr } = { afterLegacyOpCond s with trace := tr } := by
  unfold afterLegacyOpCond
  dsimp only
  split
  · split
    · rfl
    · exact legacySdTest_withTrace tr { s with path := .sd1, phase := .initLegacyWait }
  · exact legacySdTest_withTrace tr s

theorem afterOcr_withTrace (tr : List Event) (s : State) :
    afterOcr { s with trace := tr } = { afterOcr s with trace := tr } := by
  unfold afterOcr
  dsimp only
  split
  · exact beginForceBlockLength_withTrace tr { s with version := _ }
  · exact raiseFail_withTrace _ tr s

theorem afterLegacyInitiate_withTrace (tr : List Event) (s : State) :
    afterLegacyInitiate { s with trace := tr } = { afterLegacyInitiate s with trace := tr } := by
  unfold afterLegacyInitiate
  rw [expired_withTrace]
  dsimp only
  split
  · exact beginForceBlockLength_withTrace tr { s with version := .mmcV3 }
  · split
    · exact raiseFail_withTrace _ tr s
    · rfl

theorem afterBlockLength_withTrace (tr : List Event) (s : State) :
    afterBlockLength { s with trace := tr } = { afterBlockLength s with trace := tr } := by
  unfold afterBlockLength
  dsimp only
  split
  · rfl
  · split
    · exact raiseFail_withTrace _ tr s
    · rfl

theorem afterReadBlock_withTrace (tr : List Event) (s : State) :
    afterReadBlock { s with trace := tr } = { afterReadBlock s with trace := tr } := by
  unfold afterReadBlock
  dsimp only
  split <;> rfl

theorem afterWriteBlock_withTrace (tr : List Event) (s : State) :
    afterWriteBlock { s with trace := tr } = { afterWriteBlock s with trace := tr } := by
  unfold afterWriteBlock
  dsimp only
  split <;> rfl

theorem parseCsd_withTrace (tr : List Event) (s : State) :
    parseCsd { s with trace := tr } = { parseCsd s with trace := tr } := by
  unfold parseCsd
  dsimp only
  split
  · exact raiseFail_withTrace _ tr s
  · split
    · exact raiseFail_withTrace _ tr s
    · rfl

/-- What follows a release byte depends on no event so far, and so not on the byte received. -/
theorem afterRelease_withTrace (a : After) (tr : List Event) (s : State) :
    afterRelease a { s with trace := tr } = { afterRelease a s with trace := tr } := by
  match a with
  | .raise f => exact raiseFail_withTrace f tr s
  | .done .cmd0 => exact afterReset_withTrace tr s
  | .done .cmd8 => exact afterVoltageCheck_withTrace tr s
  | .done .cmd55 => exact afterMarker_withTrace tr s
  | .done .acmd41Hcs => exact afterSdv2OpCond_withTrace tr s
  | .done .acmd41Legacy => exact afterLegacyOpCond_withTrace tr s
  | .done .cmd58 => exact afterOcr_withTrace tr s
  | .done .cmd1 => exact afterLegacyInitiate_withTrace tr s
  | .done .cmd16 => exact afterBlockLength_withTrace tr s
  | .done .cmd17 => exact afterReadBlock_withTrace tr s
  | .done .cmd24 => exact afterWriteBlock_withTrace tr s
  | .done .cmd9 => exact parseCsd_withTrace tr s

/-! ## `deselect()` and its release byte -/

section
variable {s : State} {a : After} {rest : List Answer} (hn : noTick 1 s) (hc : s.cfg.ok = true)
include hn hc

theorem step_deselect (hp : s.pos = .deselect a) : step s = .next { s with
    cs := .deasserted, pos := .release a, sched := s.sched.drop 1, trace := .cs .deasserted :: s.trace } := by
  rw [step_turned hn hc, blockStep_deselect (s := turned s) hp]
  rfl

theorem step_release_byte {i : Byte} (hp : s.pos = .release a) (hcard : s.card = .byte i :: rest) :
    step s = .next (afterRelease a (stepX s.cfg.idleByte i rest s)) := by
  rw [step_idleByte hn hc (by simp [hp, sendsIdle]) hcard]
  simp [idleExchanged, hp]

theorem step_release_timeout (hp : s.pos = .release a) (hcs : s.cs = .deasserted) (hcard : s.card = .timeout :: rest) :
    step s = .next (raiseFail .busTimeout { s with
      card := rest, sched := s.sched.drop 1, trace := .xt s.cfg.idleByte :: s.trace }) := by
  rw [step_turned hn hc, blockStep_timeout (s := turned s) (by simp [turned, hp, sendsIdle]) hcard, timedOut,
    busTimeout_released]
  · simp [turned, emit, hcard]
  · exact hcs

end

@[simp] theorem afterRelease_sched (a : After) (s : State) : (afterRelease a s).sched = s.sched := by
  rw [afterRelease_frame]

@[simp] theorem afterRelease_cfg (a : After) (s : State) : (afterRelease a s).cfg = s.cfg := by
  rw [afterRelease_frame]

@[simp] theorem raiseFail_sched (f : Fail) (s : State) : (raiseFail f s).sched = s.sched := by
  rw [raiseFail_frame]

@[simp] theorem raiseFail_cfg (f : Fail) (s : State) : (raiseFail f s).cfg = s.cfg := by
  rw [raiseFail_frame]

/-- `deselect()` with its release byte answered: CS(0), the exchange, and what the caller does next, whatever the byte. -/
theorem run_deselect_byte {a : After} {s : State} {j : Byte} {rest : List Answer} (hc : s.cfg.ok = true) (hn : noTick 2 s)
    (hp : s.pos = .deselect a) :
    run 2 { s with card := .byte j :: rest } = .next { afterRelease a { s with
        cs := .deasserted, pos := .release a, card := rest, sched := s.sched.drop 2 } with
      trace := .x s.cfg.idleByte j :: .cs .deasserted :: s.trace } := by
  refine run_turn hn hc (step_deselect · · hp) fun hn hc => ?_
  refine run_turn hn hc (step_release_byte · · rfl rfl) fun _ _ => ?_
  rw [run_zero, ← afterRelease_withTrace]
  simp [stepX, afterX, turned]

theorem run_deselect_timeout {a : After} {s : State} {rest : List Answer} (hc : s.cfg.ok = true) (hn : noTick 2 s)
    (hp : s.pos = .deselect a) (hcard : s.card = .timeout :: rest) :
    run 2 s = .next (raiseFail .busTimeout { s with
      cs := .deasserted, pos := .release a, card := rest, sched := s.sched.drop 2,
      trace := .xt s.cfg.idleByte :: .cs .deasserted :: s.trace }) := by
  refine run_turn hn hc (step_deselect · · hp) fun hn hc => ?_
  refine run_turn hn hc (step_release_timeout · · rfl rfl hcard) fun _ _ => ?_
  simp [run_zero]

/-- Settles O12: the step after the release byte depends on no event, so its state is the same for every byte received. -/
theorem deselectThenReleaseByte : Obligations.DeselectThenReleaseByte := by
  refine ⟨fun a s rest hc hn hp => ⟨fun i _ => ?byte, fun hcard => ?timeout⟩, fun a s hc hn hp => step_deselect hn hc hp⟩
  case byte =>
    refine ⟨_, fun j => run_deselect_byte hc hn hp, ?_⟩
    rw [afterRelease_frame]
    exact ⟨rfl, rfl, fun _ => rfl⟩
  case timeout =>
    refine ⟨_, run_deselect_timeout hc hn hp hcard, ?_⟩
    rw [raiseFail_frame]
    exact ⟨rfl, rfl, rfl, rfl, rfl, rfl, rfl⟩

end Sys2Proof.Machine
end

section
/-! PROOFS. The row a step runs is the row its port decodes (O50). -/

namespace Sys2Proof.Machine

/-! ## What each port decodes -/

theorem decode_encodeOp (c : Config) (op : BitVec 3) (sector count : Word) :
    decode c .host (encodeOp op sector count) = .ok (decodeOp op sector count, []) := by
  obtain ⟨hlow, hop⟩ := op_byte_round op
  simp only [encodeOp, decode, hlow, hop, packWord_wordByte, if_true]

/-- The ten indices differ, so an index and the argument a command carries name the command. -/
theorem commandOf_index {c : Config} (hd : c.decodable = true) {cmd : Cmd} {a : Word} (ha : a = cmd.argument c a) :
    commandOf c (cmd.index c) a = .ok cmd := by
  obtain ⟨hnodup, hhcs, -⟩ := Config.decodable_facts hd
  have hlegacy := hhcs.symm
  have hne := List.nodup_reverse.2 hnodup
  simp only [Config.indices, List.reverse_cons, List.reverse_nil, List.nil_append, List.cons_append, List.nodup_cons,
    List.mem_cons, List.not_mem_nil, not_or] at hne
  cases cmd <;> simp_all [commandOf, Cmd.index, Cmd.argument]

theorem decode_frameOf {c : Config} (hc : c.ok = true) (hd : c.decodable = true) {cmd : Cmd} {a : Word}
    (ha : a = cmd.argument c a) : decode c .frame (frameOf c (cmd.index c) a).toList = .ok (cmd.toInstr a, []) := by
  obtain ⟨-, -, hstart, -⟩ := Config.ok_facts hc
  have hindex := startByte_index hstart (cmd.index c)
  have hframe : decodeFrame c (startByte c (cmd.index c)) (wordByte a 0) (wordByte a 1) (wordByte a 2) (wordByte a 3)
      (crcByte c (cmd.index c)) = .ok (cmd.toInstr a) := by
    simp [decodeFrame, hindex, packWord_wordByte, commandOf_index hd ha, ← ha]
  simp [frameOf, decode, hframe, Except.map]

theorem decode_r1 (c : Config) (b : Byte) : decode c .r1 [b] = .ok (decodeR1 b, []) := rfl

theorem decode_token_ok {c : Config} {b : Byte} {i : Instr} (h : decode c .token [b] = .ok (i, [])) :
    decodeToken c b = .ok i := by
  cases hr : decodeToken c b <;> simp_all [decode, Except.map]

theorem decode_token_error {c : Config} {b : Byte} (h : decode c .token [b] = .error .notAToken) : b ≠ c.tokenStart := by
  rintro rfl
  simp [decode, decodeToken, Except.map] at h

theorem decode_dresp_ok {c : Config} {b : Byte} {i : Instr} (h : decode c .dresp [b] = .ok (i, [])) :
    decodeDresp c b = .ok i := by
  cases hr : decodeDresp c b <;> simp_all [decode, Except.map]

theorem decode_dresp_error {c : Config} {b : Byte} {r : Reject} (h : decode c .dresp [b] = .error r) :
    decodeDresp c b = .error r := by
  cases hr : decodeDresp c b <;> simp_all [decode, Except.map]

/-! ## What each position fetches -/

theorem step_fetched {s t : State} {i : Instr} (hn : noTick 1 s) (hc : s.cfg.ok = true) (h : fetch (turned s) = some (i, t)) :
    step s = exec i t := by
  rw [step_turned hn hc, blockStep, h]

section
variable {s : State} {b : Byte} {rest : List Answer}

theorem fetch_start {op : BitVec 3} {sector count : Word} {buffer : List Byte} {hs : List HostMove} (hp : s.pos = .idle)
    (hh : s.host = .start op sector count buffer :: hs) :
    fetch s = some (decodeOp op sector count, presented op count buffer { s with host := hs }) := by
  simp [fetch, hp, hh]

theorem fetch_issue {c : Cmd} (hp : s.pos = .issue c) : fetch s = some (c.toInstr s.arg, s) := by
  simp [fetch, hp]

theorem fetch_poll {c : Cmd} (hp : s.pos = .poll c) (hcard : s.card = .byte b :: rest) :
    fetch s = some (decodeR1 b, s) := by
  simp [fetch, fetchPoll, hp, hcard]

/-- The start token runs its own row, and every other byte of the token wait that is a row runs IDLE_BYTE. -/
theorem fetch_tokenWait_row {i : Instr} (hp : s.pos = .tokenWait) (hcard : s.card = .byte b :: rest)
    (hi : decodeToken s.cfg b = .ok i) : fetch s = some (i, s) := by
  simp only [fetch, fetchToken, hp, hcard]
  unfold decodeToken at hi
  split at hi
  · cases hi; rw [if_pos ‹_›]
  · split at hi
    · cases hi; rw [if_neg ‹_›]
    · cases hi

theorem fetch_tokenWait_other (hp : s.pos = .tokenWait) (hcard : s.card = .byte b :: rest) (hb : b ≠ s.cfg.tokenStart) :
    fetch s = some (.idleByte, s) := by
  simp [fetch, fetchToken, hp, hcard, hb]

theorem fetch_dresp_row {i : Instr} (hp : s.pos = .dresp) (hcard : s.card = .byte b :: rest)
    (hi : decodeDresp s.cfg b = .ok i) : fetch s = some (i, s) := by
  simp [fetch, fetchDresp, hp, hcard, hi]

theorem fetch_dresp_other {r : Reject} (hp : s.pos = .dresp) (hcard : s.card = .byte b :: rest)
    (hr : decodeDresp s.cfg b = .error r) : fetch s = some (.idleByte, s) := by
  simp [fetch, fetchDresp, hp, hcard, hr]

theorem fetch_sendsIdle (hx : sendsIdle s.pos = true) (hpoll : ∀ c, s.pos ≠ .poll c) (htoken : s.pos ≠ .tokenWait)
    (hdresp : s.pos ≠ .dresp) : fetch s = some (.idleByte, s) := by
  cases hp : s.pos <;> simp_all [sendsIdle, fetch]

/-- Where the transport answers with a timeout or not yet, there is no byte to be a row: IDLE_BYTE is what runs. -/
theorem fetch_noByte (hx : sendsIdle s.pos = true) (hno : ∀ b rest, s.card ≠ .byte b :: rest) :
    fetch s = some (.idleByte, s) := by
  match hcard : s.card with
  | [] => cases hp : s.pos <;> simp_all [sendsIdle, fetch, fetchPoll, fetchToken, fetchDresp]
  | .timeout :: _ => cases hp : s.pos <;> simp_all [sendsIdle, fetch, fetchPoll, fetchToken, fetchDresp]
  | .byte b :: rest => exact absurd hcard (hno b rest)

theorem fetch_leadToken (hp : s.pos = .leadToken) : fetch s = some (.tokenStart, s) := by
  simp [fetch, hp]

end

/-- Settles O50: each port's decoder gives back the row that the position fetches. -/
theorem stepRunsTheDecodedInstruction : Obligations.StepRunsTheDecodedInstruction := by
  intro s hc hd hn
  have fetched {i : Instr} {t : State} (h : fetch (turned s) = some (i, t)) : step s = exec i t := step_fetched hn hc h
  refine ⟨fun i op sector count buffer hs hp hh hi => ?start, fun i c hp ha hi => ?command,
    fun i c b rest hp hcard hi => ?poll, fun b rest hp hcard => ⟨fun i hi => ?token, fun hi => ?notAToken⟩,
    fun b rest hp hcard => ⟨fun i hi => ?dresp, fun hi => ?notADataResponse⟩, fun hx hpoll htoken hdresp => ?idleByte,
    fun hx hno => ?noByte, fun hp => ?leadToken⟩
  case start =>
    rw [decode_encodeOp] at hi; cases hi
    exact fetched (fetch_start (s := turned s) hp hh)
  case command =>
    rw [decode_frameOf hc hd ha] at hi; cases hi
    exact fetched (fetch_issue (s := turned s) hp)
  case poll =>
    rw [decode_r1] at hi; cases hi
    exact fetched (fetch_poll (s := turned s) hp hcard)
  case token => exact fetched (fetch_tokenWait_row (s := turned s) hp hcard (decode_token_ok hi))
  case notAToken => exact fetched (fetch_tokenWait_other (s := turned s) hp hcard (decode_token_error hi))
  case dresp => exact fetched (fetch_dresp_row (s := turned s) hp hcard (decode_dresp_ok hi))
  case notADataResponse => exact fetched (fetch_dresp_other (s := turned s) hp hcard (decode_dresp_error hi))
  case idleByte => exact fetched (fetch_sendsIdle (s := turned s) hx hpoll htoken hdresp)
  case noByte => exact fetched (fetch_noByte (s := turned s) hx hno)
  case leadToken => exact fetched (fetch_leadToken (s := turned s) hp)

end Sys2Proof.Machine
end

section
/-! PROOFS. What a move inside an operation owes the invariant. -/

namespace Sys2Proof.Machine

/-! ## A move inside an operation -/

/-- The byte index suits a data phase (10 R29). -/
def indexInRange (q : Pos) (p : Phase) (i : BitVec 10) : Prop :=
  (q = .data → p = .rdData → i.toNat < 512) ∧ (q = .data → p = .qscData → i.toNat < 16) ∧ (q = .sendData → i.toNat < 512)

theorem Phase.op?_eq_none {p : Phase} : p.op? = none ↔ p = .idle := by
  cases p <;> simp [Phase.op?]

/-- What a move inside an operation owes the invariant: all that is said of the place it moves to. The session, the operation with
its operands and the buffer are as they were; the other registers are not read. -/
theorem Inv.move {s t : State} (h : Inv s) (hst : t = { s with
      cs := t.cs, blk := t.blk, idx := t.idx, pollCnt := t.pollCnt, phase := t.phase, pos := t.pos, result := t.result,
      arg := t.arg, frame := t.frame, r1 := t.r1, trailing := t.trailing, dresp := t.dresp, csd := t.csd, path := t.path,
      cnt := t.cnt, ms := t.ms, r55 := t.r55, lastStatus := t.lastStatus, fail := t.fail, earlier := t.earlier,
      host := t.host, card := t.card, sched := t.sched, trace := t.trace })
    (hclk : s.pos ≠ .clkSlow) (hop : t.phase.op? = s.phase.op?) (place : posPlace t.pos t.phase = true)
    (select : t.cs = .asserted ↔ spanOpen t.pos = true)
    (blocks : s.phase.op? = some .read ∨ s.phase.op? = some .write →
      t.blk ≤ s.count ∧ (blockCounted t.pos = false → t.blk < s.count))
    (index : indexInRange t.pos t.phase t.idx)
    (classified : t.phase = .initForceBlockLength ∨ t.phase = .initSpeedUp → s.version ≠ .unknown)
    (pollLeft : ∀ c, t.pos = .poll c → t.pollCnt ≠ 0) : Inv t := by
  have hidle : t.phase = .idle ↔ s.phase = .idle := by rw [← Phase.op?_eq_none, hop, Phase.op?_eq_none]
  cases t
  injection hst
  subst_vars
  refine ⟨h.config, h.buffer, place, ?_, select, ?_, ?_, ?_, index, h.readyFast, ?_, ?_, classified, h.degradedByPolicy,
    h.readyKnown, pollLeft⟩
  · rw [ne_eq, hidle]; exact h.busyIff
  · rw [hop]; exact h.operation
  · rw [hop]; exact fun ho => ⟨(blocks ho).1, (blocks ho).2, (h.blocks ho).2.2⟩
  · rw [hop]; exact h.session
  · rw [hidle]; exact h.notReadyIdle
  · rw [hop]; exact fun ho _ => h.initSlow ho hclk

/-- The block arithmetic without the admission. -/
theorem Inv.counted {s : State} (h : Inv s) (ho : s.phase.op? = some .read ∨ s.phase.op? = some .write) :
    s.blk ≤ s.count ∧ (blockCounted s.pos = false → s.blk < s.count) :=
  ⟨(h.blocks ho).1, (h.blocks ho).2.1⟩

theorem phase_or {p a b : Phase} (h : (p == a || p == b) = true) : p = a ∨ p = b := by
  simpa using h

/-- Chip-select is released at a position outside a span. -/
theorem released_select {l : CsLevel} {q : Pos} (hl : l = .deasserted) (hq : spanOpen q = false) :
    l = .asserted ↔ spanOpen q = true := by
  simp [hl, hq]

/-- From `q₀` to `q` the sequencer stays inside its span, or outside one, and the block in hand is not counted yet. -/
def sameSpan (q₀ q : Pos) : Bool := q₀ != .clkSlow && spanOpen q == spanOpen q₀ && !blockCounted q₀

/-- The sequencer goes from one place of its operation to another, the byte index becoming `i` and the poll's budget `n`. -/
theorem Inv.enter {s : State} {q₀ : Pos} (h : Inv s) (hp : s.pos = q₀) (q : Pos) (p : Phase) (i : BitVec 10) (n : BitVec 8)
    (hspan : sameSpan q₀ q = true) (hop : p.op? = s.phase.op?) (place : posPlace q p = true) (index : indexInRange q p i)
    (classified : p = .initForceBlockLength ∨ p = .initSpeedUp → s.version ≠ .unknown) (poll : ∀ c, q = .poll c → n ≠ 0) :
    Inv { s with pos := q, phase := p, idx := i, pollCnt := n } := by
  subst hp
  simp only [sameSpan, Bool.and_eq_true, bne_iff_ne, beq_iff_eq, Bool.not_eq_true'] at hspan
  obtain ⟨⟨hclk, hopen⟩, hcounted⟩ := hspan
  refine h.move rfl hclk hop place (by rw [h.select, hopen]) (fun ho => ?_) index classified poll
  obtain ⟨hle, hlt⟩ := h.counted ho
  exact ⟨hle, fun _ => hlt hcounted⟩

/-- At `q` the invariant speaks of no byte index and no poll. -/
def plainPos (q : Pos) : Bool :=
  match q with
  | .data | .sendData | .poll _ => false
  | _ => true

theorem plain_index {q : Pos} (hq : plainPos q = true) (p : Phase) (i : BitVec 10) : indexInRange q p i := by
  cases q <;> simp_all [plainPos, indexInRange]

theorem plain_poll {q : Pos} (hq : plainPos q = true) {c : Cmd} (hc : q = .poll c) : False := by
  subst hc
  cases hq

/-- The sequencer goes from one place of its operation to another that is plain. -/
theorem Inv.goto {s : State} {q₀ : Pos} (h : Inv s) (hp : s.pos = q₀) (q : Pos) (p : Phase) (hspan : sameSpan q₀ q = true)
    (hplain : plainPos q = true) (hop : p.op? = s.phase.op?) (place : posPlace q p = true)
    (classified : p = .initForceBlockLength ∨ p = .initSpeedUp → s.version ≠ .unknown) : Inv { s with pos := q, phase := p } :=
  h.enter hp q p s.idx s.pollCnt hspan hop place (plain_index hplain p _) classified fun _ hc => (plain_poll hplain hc).elim

/-- The same inside one phase. -/
theorem Inv.stay {s : State} {q₀ : Pos} (h : Inv s) (hp : s.pos = q₀) (q : Pos) (hspan : sameSpan q₀ q = true)
    (hplain : plainPos q = true) (place : posPlace q s.phase = true) : Inv { s with pos := q } :=
  h.goto hp q s.phase hspan hplain rfl place h.classified

/-- The invariant reads none of these registers. -/
theorem Inv.unread {s t : State} (h : Inv s) (hst : t = { s with
    result := t.result, arg := t.arg, frame := t.frame, r1 := t.r1, trailing := t.trailing, dresp := t.dresp, csd := t.csd,
    path := t.path, cnt := t.cnt, ms := t.ms, r55 := t.r55, lastStatus := t.lastStatus, fail := t.fail,
    earlier := t.earlier, host := t.host, card := t.card, sched := t.sched, trace := t.trace }) : Inv t := by
  rw [hst]
  exact ⟨h.config, h.buffer, h.place, h.busyIff, h.select, h.operation, h.blocks, h.session, h.index, h.readyFast,
    h.notReadyIdle, h.initSlow, h.classified, h.degradedByPolicy, h.readyKnown, h.pollLeft⟩

/-- The buffer may change, its canonical form kept. -/
theorem Inv.store {s : State} (h : Inv s) (off : Nat) (b : Byte) : Inv { s with hostbuf := s.hostbuf.write off b } :=
  ⟨h.config, Memory.write_wf off b h.buffer, h.place, h.busyIff, h.select, h.operation, h.blocks, h.session, h.index,
    h.readyFast, h.notReadyIdle, h.initSlow, h.classified, h.degradedByPolicy, h.readyKnown, h.pollLeft⟩

/-- The place of the sequencer, read at a known position. -/
theorem Inv.placeAt {s : State} {q : Pos} (h : Inv s) (hp : s.pos = q) : posPlace q s.phase = true := hp ▸ h.place

theorem Inv.deasserted {s : State} {q : Pos} (h : Inv s) (hp : s.pos = q) (hq : spanOpen q = false) : s.cs = .deasserted := by
  have hselect := h.select
  cases hcs : s.cs <;> simp_all

@[simp] theorem cmdPlace_idle (c : Cmd) : cmdPlace c .idle = false := by cases c <;> rfl

@[simp] theorem trailPlace_idle (c : Cmd) : trailPlace c .idle = false := by cases c <;> rfl

@[simp] theorem afterPlace_idle (a : After) : afterPlace a .idle = false := by
  cases a with
  | done c => cases c <;> rfl
  | raise f => cases f <;> rfl

/-- Only at its two resting positions is the block idle. -/
theorem posPlace_idle {q : Pos} (h : posPlace q .idle = true) : q = .idle ∨ q = .done := by
  cases q <;> simp [posPlace] at h ⊢

theorem Inv.inFlight {s : State} {q : Pos} (h : Inv s) (hp : s.pos = q) (hq : posPlace q .idle = false) : s.phase ≠ .idle := by
  intro hph
  have hplace := h.placeAt hp
  rw [hph, hq] at hplace
  cases hplace

theorem trailPlace_spanEnd {c : Cmd} {p : Phase} (h : trailPlace c p = true) : spanEnd c p = true := by
  cases c <;> simp_all [trailPlace, spanEnd, cmdPlace]

end Sys2Proof.Machine
end

section
/-! PROOFS. The invariant after a command's frame and poll, and after every byte received or sent inside a span. -/

namespace Sys2Proof.Machine

/-! ## The command -/

theorem Inv.commandSent {s : State} {c : Cmd} (h : Inv s) (hp : s.pos = .issue c) (a : Word) (f : Vector Byte 6) :
    Inv { driveCs .asserted { s with arg := a } with frame := f, pos := .frame c 0 } := by
  have hplace := h.placeAt hp
  refine h.move rfl (by simp [hp]) rfl hplace (iff_of_true rfl rfl) (fun ho => ?_) (plain_index (q := .frame c 0) rfl _ _)
    h.classified nofun
  obtain ⟨hle, hlt⟩ := h.counted ho
  exact ⟨hle, fun _ => hlt (by rw [hp]; rfl)⟩

theorem Inv.afterFrameByte {s : State} {c : Cmd} {k : Fin 6} (h : Inv s) (hp : s.pos = .frame c k) :
    Inv (afterFrameByte c k s) := by
  have hplace := h.placeAt hp
  unfold Machine.afterFrameByte
  split
  · exact h.stay hp (.frame c ⟨k + 1, _⟩) rfl rfl hplace
  · obtain ⟨hbudget, -⟩ := Config.ok_budgets h.config
    exact h.enter hp (.poll c) s.phase s.idx s.cfg.r1PollBudget rfl rfl hplace (by simp [indexInRange]) h.classified
      fun _ _ => hbudget

/-- `t` is inside the span and the operation of `s`, at a plain place. -/
structure PollEnd (s t : State) : Prop where
  place : posPlace t.pos t.phase = true
  operation : t.phase.op? = s.phase.op?
  span : spanOpen t.pos = true
  plain : plainPos t.pos = true
  phase : t.phase = s.phase ∨ t.phase.op? ≠ some .init

theorem PollEnd.deselect {s : State} {a : After} (ha : afterPlace a s.phase = true) : PollEnd s (deselect a s) :=
  ⟨ha, rfl, rfl, rfl, .inl rfl⟩

theorem afterPoll_end {c : Cmd} {s : State} (h : cmdPlace c s.phase = true) : PollEnd s (afterPoll c s) := by
  cases c <;> simp only [Machine.afterPoll]
  case cmd8 => split; exacts [⟨h, rfl, rfl, rfl, .inl rfl⟩, .deselect h]
  case cmd58 => split; exacts [⟨h, rfl, rfl, rfl, .inl rfl⟩, .deselect h]
  case cmd17 =>
    have hph : s.phase = .rdCommand := eq_of_beq h
    split
    · exact ⟨rfl, by rw [hph]; rfl, rfl, rfl, .inr nofun⟩
    · exact .deselect (by rw [hph]; rfl)
  case cmd24 =>
    have hph : s.phase = .wrCommand := eq_of_beq h
    split
    · exact ⟨rfl, by rw [hph]; rfl, rfl, rfl, .inr nofun⟩
    · exact .deselect (by rw [hph]; rfl)
  case cmd9 =>
    have hph : s.phase = .qscCommand := eq_of_beq h
    split
    · exact ⟨rfl, by rw [hph]; rfl, rfl, rfl, .inr nofun⟩
    · exact .deselect (by rw [hph]; rfl)
  all_goals exact .deselect h

/-- The end of the poll, whatever its last byte and whatever is left of its budget. -/
theorem Inv.afterPoll {s : State} {c : Cmd} (h : Inv s) (hp : s.pos = .poll c) (b : Byte) (n : BitVec 8) :
    Inv (afterPoll c { s with r1 := b, pollCnt := n }) := by
  obtain ⟨hframe, hpoll⟩ := afterPoll_frame c { s with r1 := b, pollCnt := n }
  obtain ⟨hplace, hop, hspan, hplain, hphase⟩ := afterPoll_end (s := { s with r1 := b, pollCnt := n }) (h.placeAt hp)
  rw [hframe]
  refine (h.enter hp _ _ s.idx n ?_ hop hplace (plain_index hplain _ _) (fun hf => ?_)
    fun d hd => absurd hd (hpoll d)).unread rfl
  · rw [sameSpan, hspan]; rfl
  · rcases hphase with hsame | hother
    · exact h.classified (hsame ▸ hf)
    · rcases hf with hf | hf <;> exact absurd (by rw [hf]; rfl) hother

theorem Inv.pollByte {s : State} {c : Cmd} (h : Inv s) (hp : s.pos = .poll c) (b : Byte) : Inv (pollByte c b s) := by
  unfold Machine.pollByte
  dsimp only
  split
  · exact h.afterPoll hp b _
  · rename_i hgo
    simp only [Bool.or_eq_true, beq_iff_eq, not_or] at hgo
    exact h.move rfl (by simp [hp]) rfl h.place h.select h.counted h.index h.classified fun _ _ => hgo.2

/-! ## The bytes of a data packet received -/

theorem Inv.lastTrailingByte {s : State} {c : Cmd} {t0 t1 t2 : Byte} (h : Inv s) (hp : s.pos = .trail3 c t0 t1 t2) (b : Byte) :
    Inv (lastTrailingByte c t0 t1 t2 b s) :=
  (h.stay hp (.deselect (.done c)) rfl rfl (trailPlace_spanEnd (h.placeAt hp))).unread rfl

theorem Inv.tokenByte {s : State} (h : Inv s) (hp : s.pos = .tokenWait) (b : Byte) : Inv (tokenByte b s) := by
  have hplace := h.placeAt hp
  have hfail : Inv (deselect (.raise .dataTokenError) s) := h.stay hp (.deselect (.raise .dataTokenError)) rfl rfl hplace
  unfold Machine.tokenByte
  split
  · split
    · rename_i hq
      exact h.enter hp .data .qscData 0 s.pollCnt rfl (by rw [hq]; rfl) rfl (by simp [indexInRange]) (by simp) nofun
    · rename_i hq
      have hr : s.phase = .rdTokenWait := (phase_or hplace).resolve_right hq
      exact h.enter hp .data .rdData 0 s.pollCnt rfl (by rw [hr]; rfl) rfl (by simp [indexInRange]) (by simp) nofun
  · exact hfail
  · split
    · exact hfail
    · exact h

theorem idx_succ {i : BitVec 10} {n : Nat} (hn : n ≤ 512) (h : i.toNat + 1 < n) : (i + 1).toNat < n := by
  bv_omega

theorem Inv.csdByte {s : State} (h : Inv s) (hp : s.pos = .data) (hq : s.phase = .qscData) (b : Byte) : Inv (csdByte b s) := by
  obtain ⟨-, hlen, -⟩ := Config.ok_facts h.config
  unfold Machine.csdByte
  dsimp only
  split
  · rename_i hi
    have hnext := idx_succ (by omega) (hlen ▸ hi)
    exact h.move rfl (by simp [hp]) rfl h.place h.select h.counted (by simpa [indexInRange, hp, hq] using hnext) h.classified
      (by simp [hp])
  · exact (h.goto hp (.crc false) .qscCrc rfl rfl (by rw [hq]; rfl) rfl (by simp)).unread rfl

theorem Inv.afterDataByte {s : State} (h : Inv s) (hp : s.pos = .data) (hr : s.phase = .rdData) : Inv (afterDataByte s) := by
  obtain ⟨hlen, -⟩ := Config.ok_facts h.config
  unfold Machine.afterDataByte
  split
  · rename_i hi
    have hnext := idx_succ (by omega) (hlen ▸ hi)
    exact h.move rfl (by simp [hp]) rfl h.place h.select h.counted (by simpa [indexInRange, hp, hr] using hnext) h.classified
      (by simp [hp])
  · exact h.goto hp (.crc false) .rdCrc rfl rfl (by rw [hr]; rfl) rfl (by simp)

theorem Inv.dataByte {s t : State} (h : Inv s) (hp : s.pos = .data) {b : Byte} (ht : dataByte b s = .next t) : Inv t := by
  have hplace := h.placeAt hp
  unfold Machine.dataByte at ht
  split at ht
  · rename_i hq
    cases ht
    exact h.csdByte hp hq b
  · rename_i hq
    cases (withinBuffer_next ht).2
    exact (h.store _ b).afterDataByte hp ((phase_or hplace).resolve_right hq)

theorem Inv.crcByteReceived {s : State} {second : Bool} (h : Inv s) (hp : s.pos = .crc second) :
    Inv (crcByteReceived second s) := by
  have hplace := h.placeAt hp
  unfold Machine.crcByteReceived
  split
  · refine h.stay hp (.deselect (.done _)) rfl rfl ?_
    rcases phase_or hplace with hph | hph <;> rw [hph] <;> rfl
  · exact h.stay hp (.crc true) rfl rfl hplace

/-! ## The bytes of a write -/

theorem Inv.beginSendData {s : State} (h : Inv s) (hp : s.pos = .leadToken) : Inv (beginSendData s) := by
  have hph : s.phase = .wrLead := eq_of_beq (h.placeAt hp)
  exact h.enter hp .sendData .wrData 0 s.pollCnt rfl (by rw [hph]; rfl) rfl (by simp [indexInRange]) (by simp) nofun

theorem Inv.afterSentByte {s : State} (h : Inv s) (hp : s.pos = .sendData) : Inv (afterSentByte s) := by
  obtain ⟨hlen, -⟩ := Config.ok_facts h.config
  have hph : s.phase = .wrData := eq_of_beq (h.placeAt hp)
  unfold Machine.afterSentByte
  split
  · rename_i hi
    have hnext := idx_succ (by omega) (hlen ▸ hi)
    exact h.move rfl (by simp [hp]) rfl h.place h.select h.counted (by simpa [indexInRange, hp] using hnext) h.classified
      (by simp [hp])
  · exact h.goto hp (.stub false) .wrCrc rfl rfl (by rw [hph]; rfl) rfl (by simp)

theorem Inv.afterStub {s : State} {second : Bool} (h : Inv s) (hp : s.pos = .stub second) : Inv (afterStub second s) := by
  have hplace := h.placeAt hp
  have hph : s.phase = .wrCrc := eq_of_beq hplace
  unfold Machine.afterStub
  split
  · exact h.goto hp .dresp .wrDataResp rfl rfl (by rw [hph]; rfl) rfl (by simp)
  · exact h.stay hp (.stub true) rfl rfl hplace

theorem Inv.drespByte {s : State} (h : Inv s) (hp : s.pos = .dresp) (b : Byte) : Inv (drespByte b s) := by
  have hplace := h.placeAt hp
  have hph : s.phase = .wrDataResp := eq_of_beq hplace
  have hfail : Inv (deselect (.raise .writeRejected) { s with dresp := b }) :=
    (h.stay hp (.deselect (.raise .writeRejected)) rfl rfl hplace).unread rfl
  unfold Machine.drespByte
  dsimp only
  split
  · exact (h.goto hp .busyWait .wrBusyWait rfl rfl (by rw [hph]; rfl) rfl (by simp)).unread rfl
  all_goals exact hfail

/-- The last byte of the busy-wait counts the block (44 R206, log 13). -/
theorem Inv.busyByte {s : State} (h : Inv s) (hp : s.pos = .busyWait) (b : Byte) : Inv (busyByte b s) := by
  have hplace := h.placeAt hp
  unfold Machine.busyByte
  split
  · refine h.move rfl (by simp [hp]) rfl hplace ?_ (fun ho => ⟨?_, nofun⟩) (plain_index (q := .deselect _) rfl _ _) h.classified
      nofun
    · rw [show spanOpen _ = spanOpen s.pos by rw [hp]; rfl]
      exact h.select
    · have hlt := (h.counted ho).2 (by rw [hp]; rfl)
      show s.blk + 1 ≤ s.count
      bv_omega
  · split
    · exact h.stay hp (.deselect (.raise .busyTimeout)) rfl rfl hplace
    · exact h

end Sys2Proof.Machine
end

section
/-! PROOFS. The invariant after a release byte: the next command, the end of the operation, or its failure. -/

namespace Sys2Proof.Machine

/-- An operation that ends without a failure, chip-select released and the session there. -/
theorem Inv.succeed {s : State} (h : Inv s) (hcs : s.cs = .deasserted) (hready : s.ready = true) (blk result : Word) :
    Inv (complete .none { s with blk := blk, result := result }) :=
  .of_ended h.config h.buffer rfl rfl rfl hcs h.readyFast (by simp [hready]) h.degradedByPolicy h.readyKnown

/-- The classification of Initialize (42 R147, R149, R150). -/
theorem Inv.classify {s : State} (h : Inv s) (hop : s.phase.op? = some .init) {v : Version} (hv : v ≠ .unknown) :
    Inv { s with version := v } := by
  have hnot := h.session.1 hop
  have hp : s.phase ≠ .idle := by rw [ne_eq, ← Phase.op?_eq_none, hop]; simp
  exact ⟨h.config, h.buffer, h.place, h.busyIff, h.select, h.operation, by simp [hop], by simp [hop, hnot], h.index,
    by simp [hnot], by simp [hp], h.initSlow, fun _ => hv, h.degradedByPolicy, by simp [hnot], h.pollLeft⟩

/-- A permissive policy degrades the session to come (42 R145, R151). -/
theorem Inv.degrade {s : State} (h : Inv s) (hd : degradeConfigured s.cfg = true) : Inv { s with degraded := true } :=
  ⟨h.config, h.buffer, h.place, h.busyIff, h.select, h.operation, h.blocks, h.session, h.index, h.readyFast,
    h.notReadyIdle, h.initSlow, h.classified, fun _ => hd, h.readyKnown, h.pollLeft⟩

section
variable {s : State} {c : Cmd} (h : Inv s) (hp : s.pos = .release (.done c))
include h hp

theorem Inv.spanEnded : spanEnd c s.phase = true := h.placeAt hp

theorem Inv.failed (f : Fail) : Inv (Machine.raiseFail f s) :=
  h.raiseFail f (h.deasserted hp rfl) (h.inFlight hp (afterPlace_idle (.done c))) (by simp [hp])

variable (hc : c ≠ .cmd24)
include hc

/-- From the end of a span that does not count a block to a plain place outside a span. -/
theorem Inv.leave (q : Pos) (p : Phase) (hspan : spanOpen q = false) (hplain : plainPos q = true) (hop : p.op? = s.phase.op?)
    (place : posPlace q p = true) (classified : p = .initForceBlockLength ∨ p = .initSpeedUp → s.version ≠ .unknown) :
    Inv { s with pos := q, phase := p } :=
  h.goto hp q p (by rw [sameSpan, hspan]; simp [spanOpen, blockCounted, hc]) hplain hop place classified

theorem Inv.call (d : Cmd) (p : Phase) (hop : p.op? = s.phase.op?) (place : cmdPlace d p = true)
    (classified : p = .initForceBlockLength ∨ p = .initSpeedUp → s.version ≠ .unknown) :
    Inv { s with pos := .issue d, phase := p } :=
  h.leave hp hc (.issue d) p rfl rfl hop place classified

theorem Inv.beginSpeedUp (hop : s.phase.op? = some .init) (hv : s.version ≠ .unknown) : Inv (beginSpeedUp s) :=
  h.leave hp hc .clkFast .initSpeedUp rfl rfl hop.symm rfl fun _ => hv

theorem Inv.beginForceBlockLength (hop : s.phase.op? = some .init) (hv : s.version ≠ .unknown) :
    Inv (beginForceBlockLength s) := by
  have hcall := h.call hp hc .cmd16 .initForceBlockLength hop.symm rfl fun _ => hv
  have hfast := h.beginSpeedUp hp hc hop hv
  unfold Machine.beginForceBlockLength
  dsimp only
  split
  iterate 3 exact hcall.unread rfl
  iterate 2 exact hfast

/-- The card is classified, and its block length forced. -/
theorem Inv.classified_forced (hop : s.phase.op? = some .init) {v : Version} (hv : v ≠ .unknown) :
    Inv (Machine.beginForceBlockLength { s with version := v }) :=
  (h.classify hop hv).beginForceBlockLength hp hc hop hv

end

section
variable {s : State} (h : Inv s)
include h

theorem Inv.afterReset (hp : s.pos = .release (.done .cmd0)) : Inv (afterReset s) := by
  have hph : s.phase = .initReset := eq_of_beq (h.spanEnded hp)
  unfold Machine.afterReset
  split
  · exact (h.call hp (by simp) .cmd8 .initVoltageCheck (by rw [hph]; rfl) rfl (by simp)).unread rfl
  · exact h.failed hp _

theorem Inv.afterVoltageCheck (hp : s.pos = .release (.done .cmd8)) : Inv (afterVoltageCheck s) := by
  have hph : s.phase = .initVoltageCheck := eq_of_beq (h.spanEnded hp)
  have hsd : Inv (beginSdv2Wait s) := (h.call hp (by simp) .cmd55 .initSdv2Wait (by rw [hph]; rfl) rfl (by simp)).unread rfl
  unfold Machine.afterVoltageCheck
  split
  · split
    · exact hsd
    · split
      · exact h.failed hp _
      · rename_i hpolicy
        have hd : Inv { s with degraded := true } := h.degrade (by simp [degradeConfigured, hpolicy])
        exact (hd.call hp (by simp) .cmd55 .initSdv2Wait (by rw [hph]; rfl) rfl (by simp)).unread rfl
  · exact (h.call hp (by simp) .cmd55 .initLegacyProbe (by rw [hph]; rfl) rfl (by simp)).unread rfl

/-- ACMD41 follows its marker in the phase of the marker (42 R146, R148, R149). -/
theorem Inv.afterMarker (hp : s.pos = .release (.done .cmd55)) : Inv (afterMarker s) := by
  have hph : s.phase = .initSdv2Wait ∨ s.phase = .initLegacyProbe ∨ s.phase = .initLegacyWait := by
    simpa [spanEnd, cmdPlace, or_assoc] using h.spanEnded hp
  unfold Machine.afterMarker
  split
  · rename_i hsd
    exact (h.stay hp (.issue .acmd41Hcs) rfl rfl (by rw [hsd]; rfl)).unread rfl
  · rename_i hsd
    have hlegacy : posPlace (.issue .acmd41Legacy) s.phase = true := by
      rcases hph.resolve_left hsd with hq | hq <;> rw [hq] <;> rfl
    split <;> exact (h.stay hp (.issue .acmd41Legacy) rfl rfl hlegacy).unread rfl

theorem Inv.afterSdv2OpCond (hp : s.pos = .release (.done .acmd41Hcs)) : Inv (afterSdv2OpCond s) := by
  have hph : s.phase = .initSdv2Wait := eq_of_beq (h.spanEnded hp)
  unfold Machine.afterSdv2OpCond
  split
  · exact (h.call hp (by simp) .cmd58 .initOcrRead (by rw [hph]; rfl) rfl (by simp)).unread rfl
  · split
    · exact h.failed hp _
    · exact (h.stay hp (.issue .cmd55) rfl rfl (by rw [hph]; rfl)).unread rfl

theorem Inv.legacySdTest (hp : s.pos = .release (.done .acmd41Legacy)) (hph : s.phase = .initLegacyWait) :
    Inv (legacySdTest s) := by
  unfold Machine.legacySdTest
  split
  · exact h.classified_forced hp (by simp) (by rw [hph]; rfl) (by simp)
  · split
    · exact h.failed hp _
    · exact (h.stay hp (.issue .cmd55) rfl rfl (by rw [hph]; rfl)).unread rfl

/-- The probe's choice of the path enters the legacy wait (42 R148). -/
theorem Inv.afterLegacyOpCond (hp : s.pos = .release (.done .acmd41Legacy)) : Inv (afterLegacyOpCond s) := by
  have hph : s.phase = .initLegacyProbe ∨ s.phase = .initLegacyWait := phase_or (h.spanEnded hp)
  unfold Machine.afterLegacyOpCond
  split
  · rename_i hprobe
    split
    · exact (h.call hp (by simp) .cmd1 .initLegacyWait (by rw [hprobe]; rfl) rfl (by simp)).unread rfl
    · have hwait : Inv { s with path := .sd1, phase := .initLegacyWait } :=
        Inv.unread (h.leave hp (by simp) (.release (.done .acmd41Legacy)) .initLegacyWait rfl rfl (by rw [hprobe]; rfl) rfl
          (by simp)) (by simp [hp])
      exact hwait.legacySdTest hp rfl
  · rename_i hprobe
    exact h.legacySdTest hp (hph.resolve_left hprobe)

theorem Inv.afterOcr (hp : s.pos = .release (.done .cmd58)) : Inv (afterOcr s) := by
  have hph : s.phase = .initOcrRead := eq_of_beq (h.spanEnded hp)
  unfold Machine.afterOcr
  split
  · exact h.classified_forced hp (by simp) (by rw [hph]; rfl) (by split <;> simp)
  · exact h.failed hp _

theorem Inv.afterLegacyInitiate (hp : s.pos = .release (.done .cmd1)) : Inv (afterLegacyInitiate s) := by
  have hph : s.phase = .initLegacyWait := eq_of_beq (h.spanEnded hp)
  unfold Machine.afterLegacyInitiate
  split
  · exact h.classified_forced hp (by simp) (by rw [hph]; rfl) (by simp)
  · split
    · exact h.failed hp _
    · exact (h.stay hp (.issue .cmd1) rfl rfl (by rw [hph]; rfl)).unread rfl

theorem Inv.afterBlockLength (hp : s.pos = .release (.done .cmd16)) : Inv (afterBlockLength s) := by
  have hph : s.phase = .initForceBlockLength := eq_of_beq (h.spanEnded hp)
  have hop : s.phase.op? = some .init := by rw [hph]; rfl
  have hv := h.classified (.inl hph)
  unfold Machine.afterBlockLength
  split
  · exact h.beginSpeedUp hp (by simp) hop hv
  · split
    · exact h.failed hp _
    · rename_i hpolicy
      have hd : Inv { s with degraded := true } := h.degrade (by simp [degradeConfigured, hpolicy])
      exact hd.beginSpeedUp hp (by simp) hop hv

/-- The next block of a READ or a WRITE is called, `k` blocks counted (44 R205, R206). -/
theorem Inv.nextBlock {a : After} (hp : s.pos = .release a) {k : Word} (hk : k < s.count) (d : Cmd) (p : Phase)
    (hop : p.op? = s.phase.op?) (place : cmdPlace d p = true)
    (classified : p = .initForceBlockLength ∨ p = .initSpeedUp → s.version ≠ .unknown) :
    Inv { s with blk := k, pos := .issue d, phase := p } := by
  have hcs := h.deasserted hp rfl
  exact h.move rfl (by simp [hp]) hop place (released_select hcs rfl) (fun _ => ⟨BitVec.le_of_lt hk, fun _ => hk⟩)
    (plain_index (q := .issue d) rfl _ _) classified nofun

/-- The block is counted, and the next one is below the count (44 R205). -/
theorem Inv.afterReadBlock (hp : s.pos = .release (.done .cmd17)) : Inv (afterReadBlock s) := by
  have hph : s.phase = .rdCrc := eq_of_beq (h.spanEnded hp)
  obtain ⟨hready, -⟩ := h.session.2 (.inl (by rw [hph]; rfl))
  have hcs := h.deasserted hp rfl
  unfold Machine.afterReadBlock
  dsimp only
  split
  · rename_i hlt
    exact (h.nextBlock hp hlt .cmd17 .rdCommand (by rw [hph]; rfl) rfl (by simp)).unread rfl
  · exact h.succeed hcs hready _ s.result

theorem Inv.afterWriteBlock (hp : s.pos = .release (.done .cmd24)) : Inv (afterWriteBlock s) := by
  have hph : s.phase = .wrBusyWait := eq_of_beq (h.spanEnded hp)
  obtain ⟨hready, -⟩ := h.session.2 (.inr (.inl (by rw [hph]; rfl)))
  have hcs := h.deasserted hp rfl
  unfold Machine.afterWriteBlock
  split
  · rename_i hlt
    exact (h.nextBlock hp hlt .cmd24 .wrCommand (by rw [hph]; rfl) rfl (by simp)).unread rfl
  · exact h.succeed hcs hready s.blk s.result

theorem Inv.parseCsd (hp : s.pos = .release (.done .cmd9)) : Inv (parseCsd s) := by
  have hph : s.phase = .qscCrc := eq_of_beq (h.spanEnded hp)
  obtain ⟨hready, -⟩ := h.session.2 (.inr (.inr (by rw [hph]; rfl)))
  unfold Machine.parseCsd
  split
  · exact h.failed hp _
  · split
    · exact h.failed hp _
    · exact h.succeed (h.deasserted hp rfl) hready s.blk _

theorem Inv.afterRelease {a : After} (hp : s.pos = .release a) : Inv (afterRelease a s) := by
  cases a with
  | raise f => exact h.raiseFail f (h.deasserted hp rfl) (h.inFlight hp (afterPlace_idle (.raise f))) (by simp [hp])
  | done c =>
    cases c
    case cmd0 => exact h.afterReset hp
    case cmd8 => exact h.afterVoltageCheck hp
    case cmd55 => exact h.afterMarker hp
    case acmd41Hcs => exact h.afterSdv2OpCond hp
    case acmd41Legacy => exact h.afterLegacyOpCond hp
    case cmd58 => exact h.afterOcr hp
    case cmd1 => exact h.afterLegacyInitiate hp
    case cmd16 => exact h.afterBlockLength hp
    case cmd17 => exact h.afterReadBlock hp
    case cmd24 => exact h.afterWriteBlock hp
    case cmd9 => exact h.parseCsd hp

end

end Sys2Proof.Machine
end

section
/-! PROOFS. The invariant after every step (O54), between operations (O57) and after reset (O53). -/

namespace Sys2Proof.Machine

/-! ## The exchanges -/

theorem Inv.powerOnByte {s : State} {sent : Nat} (h : Inv s) (hp : s.pos = .powerOn sent) : Inv (powerOnByte sent s) := by
  have hplace := h.placeAt hp
  unfold Machine.powerOnByte
  split
  · exact h.stay hp (.powerOn (sent + 1)) rfl rfl hplace
  · exact (h.stay hp (.issue .cmd0) rfl rfl hplace).unread rfl

theorem Inv.idleExchanged {s t : State} {b : Byte} (h : Inv s) (ht : idleExchanged b s = .next t) : Inv t := by
  have hplace := h.place
  cases hp : s.pos <;> rw [hp] at hplace <;>
    simp only [Machine.idleExchanged, hp, Host.Outcome.next.injEq, reduceCtorEq] at ht
  case data => exact h.dataByte hp ht
  all_goals subst ht
  case powerOn => exact h.powerOnByte hp
  case poll => exact h.pollByte hp b
  case trail0 c => exact h.stay hp (.trail1 c b) rfl rfl hplace
  case trail1 c t0 => exact h.stay hp (.trail2 c t0 b) rfl rfl hplace
  case trail2 c t0 t1 => exact h.stay hp (.trail3 c t0 t1 b) rfl rfl hplace
  case trail3 => exact h.lastTrailingByte hp b
  case tokenWait => exact h.tokenByte hp b
  case crc => exact h.crcByteReceived hp
  case leadDummy => exact h.stay hp .leadToken rfl rfl hplace
  case stub => exact h.afterStub hp
  case dresp => exact h.drespByte hp b
  case busyWait => exact h.busyByte hp b
  case release => exact h.afterRelease hp

/-- The places of an exchange: an operation is in flight, past its clock step, and no block is counted inside the span. -/
structure ExchangePlace (q : Pos) : Prop where
  inFlight : posPlace q .idle = false
  clockDown : q ≠ .clkSlow
  uncounted : spanOpen q = true → blockCounted q = false

theorem exchangePlace_of_sendsIdle {q : Pos} (hx : sendsIdle q = true) : ExchangePlace q := by
  cases q <;> cases hx <;> exact ⟨by simp [posPlace], nofun, by simp [spanOpen, blockCounted]⟩

/-- An exchange keeps the invariant if what follows the received byte does. -/
theorem Inv.exchange {s t : State} (h : Inv s) (hq : ExchangePlace s.pos) {o : Byte} {k : Byte → State → Result}
    (hk : ∀ {i t}, k i (Machine.exchanged o i s) = .next t → Inv t) (ht : exchange o k s = .next t) : Inv t := by
  obtain ⟨hfly, hclk, hblk⟩ := hq
  rcases exchange_cases ht with ⟨-, rfl⟩ | ⟨i, rest, -, hi⟩ | ⟨rest, -, rfl⟩
  · exact h
  · exact hk hi
  · exact h.timedOut o (h.inFlight rfl hfly) hclk fun hcs => hblk (h.select.1 hcs)

theorem Inv.sendsIdle {s t : State} (h : Inv s) (hx : sendsIdle s.pos = true) (ht : blockStep s = .next t) : Inv t := by
  rw [blockStep_sendsIdle hx] at ht
  exact h.exchange (exchangePlace_of_sendsIdle hx) (fun hk => (h.exchanged _ _).idleExchanged hk) ht

theorem Inv.sendFrameByte {s t : State} {c : Cmd} {k : Fin 6} (h : Inv s) (hp : s.pos = .frame c k)
    (ht : sendFrameByte c k s = .next t) : Inv t :=
  h.exchange (hp ▸ ⟨cmdPlace_idle c, nofun, fun _ => rfl⟩) (fun hk => by cases hk; exact (h.exchanged _ _).afterFrameByte hp) ht

theorem Inv.sendToken {s t : State} (h : Inv s) (hp : s.pos = .leadToken)
    (ht : Machine.exchange s.cfg.tokenStart (fun _ t => .next (Machine.beginSendData t)) s = .next t) : Inv t :=
  h.exchange (hp ▸ ⟨rfl, nofun, fun _ => rfl⟩) (fun hk => by cases hk; exact (h.exchanged _ _).beginSendData hp) ht

theorem Inv.sendDataByte {s t : State} (h : Inv s) (hp : s.pos = .sendData) (ht : sendDataByte s = .next t) : Inv t := by
  obtain ⟨-, ht⟩ := withinBuffer_next ht
  exact h.exchange (hp ▸ ⟨rfl, nofun, fun _ => rfl⟩) (fun hk => by cases hk; exact (h.exchanged _ _).afterSentByte hp) ht

/-! ## The steps of an operation without an exchange -/

/-- An operation in flight that is not an Initialize has its session (44 R203). -/
theorem Inv.ready_inFlight {s : State} (h : Inv s) (hfly : s.phase ≠ .idle) (ho : s.op ≠ .init) : s.ready = true := by
  have hnot := mt (h.op_init_iff hfly).2 ho
  obtain ⟨-, hsession⟩ := h.session
  cases hph : s.phase <;> simp_all [Phase.op?]

/-- The abort path takes its failure as chip-select is released (60 R237). -/
theorem Inv.aborted {s : State} (h : Inv s) (hp : s.pos = .abort) :
    Inv (Machine.raiseFail .busTimeout (driveCs .deasserted s)) := by
  have hfly := h.inFlight hp rfl
  by_cases ho : s.op = .init
  · rw [raiseFail_init (s := driveCs .deasserted s) ho]
    have hslow := h.initSlow ((h.op_init_iff hfly).1 ho) (by simp [hp])
    exact .of_ended h.config h.buffer rfl rfl rfl rfl nofun (fun _ => ⟨hslow, rfl⟩) h.degradedByPolicy nofun
  · rw [raiseFail_other (s := driveCs .deasserted s) ho]
    have hready := h.ready_inFlight hfly ho
    exact .of_ended h.config h.buffer rfl rfl rfl rfl h.readyFast (fun hr => absurd hready (ne_true_of_eq_false hr))
      h.degradedByPolicy h.readyKnown

theorem Inv.deselected {s : State} {a : After} (h : Inv s) (hp : s.pos = .deselect a) :
    Inv { driveCs .deasserted s with pos := .release a } := by
  have hplace := h.placeAt hp
  refine h.move rfl (by simp [hp]) rfl hplace (released_select rfl rfl) (fun ho => ?_) (plain_index (q := .release a) rfl _ _)
    h.classified nofun
  obtain ⟨hle, hlt⟩ := h.counted ho
  refine ⟨hle, fun hb => hlt ?_⟩
  rw [hp]
  simpa [blockCounted] using hb

/-- `CLK(Slow)` brings the tier that Initialize keeps until its end (70 R276). -/
theorem Inv.clockDown {s : State} (h : Inv s) (hp : s.pos = .clkSlow) : Inv (clockDown s) := by
  have hplace := h.placeAt hp
  have hph : s.phase = .initReset := eq_of_beq hplace
  have hcs := h.deasserted hp rfl
  have hop : s.phase.op? = some .init := by rw [hph]; rfl
  have hnot := h.session.1 hop
  have heq : Machine.clockDown s = { driveClk .slow s with pos := .powerOn 0 } := by simp [Machine.clockDown, hcs]
  rw [heq]
  refine ⟨h.config, h.buffer, hplace, h.busyIff, released_select hcs rfl, h.operation, ?blocks, h.session,
    plain_index (q := .powerOn 0) rfl _ _, ?readyFast, ?notReadyIdle, fun _ _ => rfl, h.classified, h.degradedByPolicy,
    h.readyKnown, nofun⟩
  case blocks => simp [hop]
  case readyFast => simp [hnot]
  case notReadyIdle => simp [hph]

/-- The session that Initialize leaves is at the fast tier, its version known or given up by a permissive policy (42 R152 to
R154). -/
theorem Inv.finishInit {s : State} (h : Inv s) (hp : s.pos = .clkFast) : Inv (finishInit (driveClk .fast s)) := by
  have hv := h.classified (.inr (eq_of_beq (h.placeAt hp)))
  refine .of_ended h.config h.buffer rfl rfl rfl (h.deasserted hp rfl) (fun _ => rfl) nofun h.degradedByPolicy
    fun _ hunknown => ?_
  by_cases hd : s.degraded = true
  · exact h.degradedByPolicy hd
  · simp [Machine.finishInit, hd, hv] at hunknown

theorem Inv.emitDone {s : State} (h : Inv s) (hp : s.pos = .done) : Inv (emitDone s) := by
  have hplace := h.placeAt hp
  have hph : s.phase = .idle := eq_of_beq hplace
  exact h.move rfl (by simp [hp]) rfl hplace (released_select (h.deasserted hp rfl) rfl) (by simp [hph, Phase.op?])
    (plain_index (q := .idle) rfl _ _) h.classified nofun

/-! ## The idle block -/

theorem hardwareReset_inv {s : State} (config : s.cfg.ok = true) (buffer : Memory.wf s.hostbuf) : Inv (hardwareReset s) := by
  constructor
  case config => exact config
  case buffer => exact buffer
  case place => rfl
  case select => exact released_select rfl rfl
  all_goals simp [hardwareReset, State.reset, Phase.op?]

theorem startOp_inv {s t : State} {o : Op} {sector count : Word} {body : State → State} (hp : s.pos = .idle)
    (hb : Inv (body (started o sector count s))) (ht : startOp o sector count body s = .next t) : Inv t := by
  rw [startOp_idle hp] at ht
  cases ht
  exact hb

section
variable {s : State} (h : Inv s) (hp : s.pos = .idle)
include h hp

/-- A host operation that is refused, or completed in its START step. -/
theorem Inv.answered {t : State} (ht : t = { s with
    op := t.op, sector := t.sector, count := t.count, result := t.result, trace := t.trace, lastStatus := t.lastStatus,
    fail := t.fail, phase := .idle, busy := false, pos := .done }) : Inv t := by
  have hph : s.phase = .idle := eq_of_beq (h.placeAt hp)
  rw [ht]
  exact .of_ended h.config h.buffer rfl rfl rfl (h.deasserted hp rfl) h.readyFast (h.notReadyIdle hph) h.degradedByPolicy
    h.readyKnown

/-- Initialize is admitted in any session state (42 R140), and drops the session. -/
theorem Inv.beginInit (sector count : Word) : Inv (beginInit (started .init sector count s)) := by
  constructor
  case config => exact h.config
  case buffer => exact h.buffer
  case place => rfl
  case select => exact released_select (h.deasserted hp rfl) rfl
  all_goals simp [Machine.beginInit, started, Phase.op?]

/-- A block operation or a card-size query, admitted, calls its first command (44 R202 to R206, R209). -/
theorem Inv.begun {o : Op} {c : Cmd} {p : Phase} {sector count blk a : Word} (hready : s.ready = true)
    (hv : s.version ≠ .unknown) (ho : p.op? = some o) (hinit : o ≠ .init) (place : cmdPlace c p = true)
    (blocks : o = .read ∨ o = .write → blk < count ∧ parametersOk s.version sector count = true) :
    Inv (issue c { started o sector count s with phase := p, blk := blk } a) := by
  have hfly : p ≠ .idle := by rw [ne_eq, ← Phase.op?_eq_none, ho]; simp
  have hnot : p.op? ≠ some .init := by simp [ho, hinit]
  constructor
  case config => exact h.config
  case buffer => exact h.buffer
  case place => exact place
  case busyIff => exact iff_of_true rfl hfly
  case select => exact released_select (h.deasserted hp rfl) rfl
  case operation => exact fun o' ho' => Option.some.inj (ho.symm.trans ho')
  case blocks =>
    intro hb
    obtain ⟨hlt, hpar⟩ := blocks (hb.imp (Option.some.inj <| ho.symm.trans ·) (Option.some.inj <| ho.symm.trans ·))
    exact ⟨BitVec.le_of_lt hlt, fun _ => hlt, hpar⟩
  case session => exact ⟨fun hi => absurd hi hnot, fun _ => ⟨hready, hv⟩⟩
  case index => exact plain_index (q := .issue c) rfl _ _
  case readyFast => exact h.readyFast
  case notReadyIdle => exact fun hi => absurd hi hfly
  case initSlow => exact fun hi => absurd hi hnot
  case classified => exact fun _ => hv
  case degradedByPolicy => exact h.degradedByPolicy
  case readyKnown => exact h.readyKnown
  case pollLeft => nofun

theorem Inv.admitBlocks {o : Op} {c : Cmd} {p : Phase} {sector count a : Word} {body : State → State}
    (ho : p.op? = some o) (hinit : o ≠ .init) (place : cmdPlace c p = true)
    (hbody : body (started o sector count s) = issue c { started o sector count s with phase := p, blk := 0 } a) :
    Inv (admitBlocks body (started o sector count s)) := by
  unfold Machine.admitBlocks
  split
  · rename_i hs
    obtain ⟨hready, hv⟩ := (sessionOk_iff s).1 hs
    split
    · rename_i hpar
      obtain ⟨hcount, -⟩ := (parametersOk_iff _ _ _).1 hpar
      rw [hbody]
      exact h.begun hp hready hv ho hinit place fun _ => ⟨hcount, hpar⟩
    · exact h.answered hp rfl
  · exact h.answered hp rfl

/-- The START step of every host operation. -/
theorem Inv.exec_decodeOp {op : BitVec 3} {sector count : Word} {t : State}
    (ht : exec (decodeOp op sector count) s = .next t) : Inv t := by
  match op with
  | 0 => exact startOp_inv hp (h.beginInit hp sector count) ht
  | 1 => exact startOp_inv hp (h.admitBlocks hp rfl (by simp) rfl rfl) ht
  | 2 => exact startOp_inv hp (h.admitBlocks hp rfl (by simp) rfl rfl) ht
  | 3 => simp only [decodeOp, exec, execGetver] at ht; exact startOp_inv hp (h.answered hp rfl) ht
  | 4 =>
    simp only [decodeOp, exec, execQcount] at ht
    refine startOp_inv hp ?_ ht
    split
    · split
      · rename_i hs
        obtain ⟨hready, hv⟩ := (sessionOk_iff s).1 hs
        exact h.begun hp hready hv (o := .qcount) (blk := s.blk) rfl nofun rfl (by simp)
      · exact h.answered hp rfl
    · exact h.answered hp rfl
  | 5 => simp only [decodeOp, exec, execQsize] at ht; exact startOp_inv hp (h.answered hp rfl) ht
  | 6 => exact startOp_inv hp (h.answered hp rfl) ht
  | 7 => exact startOp_inv hp (h.answered hp rfl) ht

theorem Inv.idle_step {t : State} (ht : blockStep s = .next t) : Inv t := by
  match hh : s.host with
  | [] => rw [blockStep_idle hp hh] at ht; cases ht; exact h
  | .poke off b :: hs => rw [blockStep_poke hp hh] at ht; cases ht; exact (h.store off b).unread rfl
  | .reset :: hs => rw [blockStep_hardwareReset hp hh] at ht; cases ht; exact hardwareReset_inv h.config h.buffer
  | .start op sector count buffer :: hs =>
    rw [blockStep_start hp hh] at ht
    have hq : (Machine.presented op count buffer { s with host := hs }).pos = .idle := by rw [presented_frame]; exact hp
    have htaken : Inv { s with host := hs } := h.unread rfl
    exact (htaken.presented op count buffer).exec_decodeOp hq ht

end

/-! ## The statements -/

theorem Inv.blockStep {s t : State} (h : Inv s) (ht : blockStep s = .next t) : Inv t := by
  by_cases hx : Machine.sendsIdle s.pos = true
  · exact h.sendsIdle hx ht
  cases hp : s.pos <;> simp only [hp, Machine.sendsIdle, not_true_eq_false] at hx
  case idle => exact h.idle_step hp ht
  case sendData => exact h.sendDataByte hp (blockStep_sendData hp ▸ ht)
  case frame c k => exact h.sendFrameByte hp (blockStep_frame hp ▸ ht)
  case leadToken => exact h.sendToken hp (blockStep_leadToken hp ▸ ht)
  case issue c => rw [blockStep_issue hp, exec_command _ hp] at ht; cases ht; exact h.commandSent hp _ _
  case deselect a => rw [blockStep_deselect hp] at ht; cases ht; exact h.deselected hp
  case abort => rw [blockStep_abort hp] at ht; cases ht; exact h.aborted hp
  case clkSlow => rw [blockStep_clkSlow hp] at ht; cases ht; exact h.clockDown hp
  case csForce => nomatch (show false = true from h.placeAt hp)
  case clkFast => rw [blockStep_clkFast hp] at ht; cases ht; exact h.finishInit hp
  case done => rw [blockStep_done hp] at ht; cases ht; exact h.emitDone hp

/-- Settles O54: a tick writes nothing the invariant reads, and a step of the block keeps it at every position. -/
theorem stepKeepsTheInvariant : Obligations.StepKeepsTheInvariant := by
  intro s t h ht
  obtain ⟨-, ⟨-, rfl⟩ | ⟨-, hb⟩⟩ := step_cases ht
  · exact h.scheduled.tick
  · exact h.scheduled.blockStep hb

/-- Settles O57: the invariant after the step, read at the two positions where the block is idle. -/
theorem idleBlockInvariants : Obligations.IdleBlockInvariants := by
  intro s t hs hst hidle
  have h := stepKeepsTheInvariant s t hs hst
  have hspan : spanOpen t.pos = false := by
    rcases posPlace_idle (hidle ▸ h.place) with hq | hq <;> rw [hq] <;> rfl
  have hbusy : t.busy = false := by simpa [hidle] using h.busyIff
  refine ⟨h.deasserted rfl hspan, hbusy, h.readyFast, h.notReadyIdle hidle, fun hr hv => ?_⟩
  simpa [degradeConfigured] using h.readyKnown hr hv

/-- Settles O53: the state after reset is what a hardware reset leaves. -/
theorem resetMeetsTheInvariants : Obligations.ResetMeetsTheInvariants :=
  ⟨hardwareReset_inv (s := State.reset) Config.default_ok State.reset_buffer_wf, .rest, rfl, rfl⟩

end Sys2Proof.Machine
end

section
/-! PROOFS. No operation writes outside its write set (O58). -/

namespace Sys2Proof.Machine

/-! ## Writing inside a set -/

/-- `s` with the write set of `o` taken from `t`, the operands of START as they were: all that a step of an operation in flight
may write (10 R46). -/
def inFlightWrites (o : Op) (s t : State) : State :=
  { writtenBy o s t with op := s.op, sector := s.sector, count := s.count }

/-- From `s` to `t` nothing outside the write set of `o` is written. -/
def WritesIn (o : Op) (s t : State) : Prop := t = inFlightWrites o s t

/-- The operations that use the bus: those that have phases. -/
def usesBus (o : Op) : Prop := o = .init ∨ o = .read ∨ o = .write ∨ o = .qcount

theorem usesBus_of_phase {p : Phase} {o : Op} (h : p.op? = some o) : usesBus o := by
  cases p <;> cases h <;> simp [usesBus]

theorem WritesIn.refl (o : Op) (s : State) : WritesIn o s s := by
  cases o <;> rfl

theorem inFlightWrites_twice (o : Op) (s t u : State) :
    inFlightWrites o (inFlightWrites o s t) u = inFlightWrites o s u := by
  cases o <;> rfl

theorem WritesIn.trans {o : Op} {s t u : State} (h₁ : WritesIn o s t) (h₂ : WritesIn o t u) : WritesIn o s u :=
  calc u = inFlightWrites o t u := h₂
    _ = inFlightWrites o (inFlightWrites o s t) u := congrArg (inFlightWrites o · u) h₁
    _ = inFlightWrites o s u := inFlightWrites_twice o s t u

theorem WritesIn.facts {o : Op} {s t : State} (h : WritesIn o s t) :
    t = writtenBy o s t ∧ t.op = s.op ∧ t.sector = s.sector ∧ t.count = s.count := by
  have h : t = inFlightWrites o s t := h
  have hop : t.op = s.op := (congrArg State.op h).trans rfl
  have hsector : t.sector = s.sector := (congrArg State.sector h).trans rfl
  have hcount : t.count = s.count := (congrArg State.count h).trans rfl
  refine ⟨?_, hop, hsector, hcount⟩
  calc t = inFlightWrites o s t := h
    _ = writtenBy o s t := by rw [inFlightWrites, ← hop, ← hsector, ← hcount]; cases o <;> rfl

/-- The registers that every operation on the bus may write. -/
theorem WritesIn.bus {o : Op} {s t : State} (ho : usesBus o) (ht : t = { s with
    cs := t.cs, arg := t.arg, frame := t.frame, r1 := t.r1, pollCnt := t.pollCnt, cnt := t.cnt, busy := t.busy,
    phase := t.phase, lastStatus := t.lastStatus, fail := t.fail, pos := t.pos, r55 := t.r55, host := t.host,
    card := t.card, sched := t.sched, trace := t.trace }) : WritesIn o s t := by
  rw [ht]
  rcases ho with rfl | rfl | rfl | rfl <;> rfl

theorem WritesIn.of_op {o : Op} {s t : State} (hop : s.op = o) (ht : t = inFlightWrites o s t) : WritesIn s.op s t :=
  hop ▸ ht

/-! ## Failures and exchanges -/

section
variable {s : State} (ho : usesBus s.op)
include ho

/-- The session fields are written by the failure of an Initialize alone (60 R238). -/
theorem writesIn_raiseFail (f : Fail) : WritesIn s.op s (raiseFail f s) := by
  by_cases hop : s.op = .init
  · rw [raiseFail_init hop]; exact .of_op hop rfl
  · rw [raiseFail_other hop]; exact .bus ho rfl

theorem writesIn_timedOut (o : Byte) : WritesIn s.op s (timedOut o s) := by
  have hx : WritesIn s.op s (emit (.xt o) { s with card := s.card.tail }) := .bus ho rfl
  refine hx.trans ?_
  unfold timedOut busTimeout
  split
  · exact .bus ho rfl
  · exact writesIn_raiseFail (s := emit (.xt o) { s with card := s.card.tail }) ho _

theorem writesIn_exchange {o : Byte} {k : Byte → State → Result} {t : State}
    (hk : ∀ {i t}, k i (exchanged o i s) = .next t → WritesIn s.op (exchanged o i s) t) (ht : exchange o k s = .next t) :
    WritesIn s.op s t := by
  rcases exchange_cases ht with ⟨-, rfl⟩ | ⟨i, rest, -, hi⟩ | ⟨rest, -, rfl⟩
  · exact .refl _ _
  · have hx : WritesIn s.op s (exchanged o i s) := .bus ho rfl
    exact hx.trans (hk hi)
  · exact writesIn_timedOut ho o

/-! ## Received bytes -/

theorem writesIn_powerOnByte (sent : Nat) : WritesIn s.op s (powerOnByte sent s) := by
  unfold powerOnByte
  split <;> exact .bus ho rfl

theorem writesIn_pollByte (c : Cmd) (b : Byte) : WritesIn s.op s (pollByte c b s) := by
  unfold pollByte
  dsimp only
  split
  · rw [(afterPoll_frame c _).1]
    exact .bus ho rfl
  · exact .bus ho rfl

theorem writesIn_crcByteReceived (second : Bool) : WritesIn s.op s (crcByteReceived second s) := by
  unfold crcByteReceived
  split <;> exact .bus ho rfl

theorem writesIn_afterStub (second : Bool) : WritesIn s.op s (afterStub second s) := by
  unfold afterStub
  split <;> exact .bus ho rfl

theorem writesIn_afterFrameByte (c : Cmd) (k : Fin 6) : WritesIn s.op s (afterFrameByte c k s) := by
  unfold afterFrameByte
  split <;> exact .bus ho rfl

/-- The byte index of a data phase is in the set of a READ and of a QCOUNT. -/
theorem writesIn_tokenByte (hop : s.op = .read ∨ s.op = .qcount) (b : Byte) : WritesIn s.op s (tokenByte b s) := by
  unfold tokenByte
  split
  · split <;> rcases hop with hop | hop <;> exact .of_op hop rfl
  · exact .bus ho rfl
  · split <;> exact .bus ho rfl

end

section
variable {s : State}

theorem writesIn_csdByte (hop : s.op = .qcount) (b : Byte) : WritesIn s.op s (csdByte b s) := by
  unfold csdByte
  dsimp only
  split <;> exact .of_op hop rfl

theorem writesIn_afterDataByte (hop : s.op = .read) : WritesIn s.op s (afterDataByte s) := by
  unfold afterDataByte
  split <;> exact .of_op hop rfl

theorem writesIn_afterSentByte (hop : s.op = .write) : WritesIn s.op s (afterSentByte s) := by
  unfold afterSentByte
  split <;> exact .of_op hop rfl

theorem writesIn_drespByte (hop : s.op = .write) (b : Byte) : WritesIn s.op s (drespByte b s) := by
  unfold drespByte
  dsimp only
  split <;> exact .of_op hop rfl

theorem writesIn_busyByte (hop : s.op = .write) (b : Byte) : WritesIn s.op s (busyByte b s) := by
  unfold busyByte
  split
  · exact .of_op hop rfl
  · split <;> exact .of_op hop rfl

end

/-! ## After a release byte -/

section
variable {s : State} (hop : s.op = .init)
include hop

theorem writesIn_failed (f : Fail) : WritesIn s.op s (raiseFail f s) :=
  writesIn_raiseFail (.inl hop) f

theorem writesIn_classified (v : Version) : WritesIn s.op s (beginForceBlockLength { s with version := v }) := by
  rw [beginForceBlockLength_frame]
  exact .of_op hop rfl

theorem writesIn_afterReset : WritesIn s.op s (afterReset s) := by
  unfold afterReset
  split
  · exact .of_op hop rfl
  · exact writesIn_failed hop _

theorem writesIn_afterVoltageCheck : WritesIn s.op s (afterVoltageCheck s) := by
  unfold afterVoltageCheck
  split
  · split
    · exact .of_op hop rfl
    · split
      · exact writesIn_failed hop _
      · exact .of_op hop rfl
  · exact .of_op hop rfl

theorem writesIn_afterMarker : WritesIn s.op s (afterMarker s) := by
  unfold afterMarker
  split
  · exact .of_op hop rfl
  · split <;> exact .of_op hop rfl

theorem writesIn_afterSdv2OpCond : WritesIn s.op s (afterSdv2OpCond s) := by
  unfold afterSdv2OpCond
  split
  · exact .of_op hop rfl
  · split
    · exact writesIn_failed hop _
    · exact .of_op hop rfl

theorem writesIn_legacySdTest : WritesIn s.op s (legacySdTest s) := by
  unfold legacySdTest
  split
  · exact writesIn_classified hop _
  · split
    · exact writesIn_failed hop _
    · exact .of_op hop rfl

theorem writesIn_afterLegacyOpCond : WritesIn s.op s (afterLegacyOpCond s) := by
  unfold afterLegacyOpCond
  split
  · split
    · exact .of_op hop rfl
    · have hpath : WritesIn s.op s { s with path := .sd1, phase := .initLegacyWait } := .of_op hop rfl
      exact hpath.trans (writesIn_legacySdTest (s := { s with path := .sd1, phase := .initLegacyWait }) hop)
  · exact writesIn_legacySdTest hop

theorem writesIn_afterOcr : WritesIn s.op s (afterOcr s) := by
  unfold afterOcr
  split
  · exact writesIn_classified hop _
  · exact writesIn_failed hop _

theorem writesIn_afterLegacyInitiate : WritesIn s.op s (afterLegacyInitiate s) := by
  unfold afterLegacyInitiate
  split
  · exact writesIn_classified hop _
  · split
    · exact writesIn_failed hop _
    · exact .of_op hop rfl

theorem writesIn_afterBlockLength : WritesIn s.op s (afterBlockLength s) := by
  unfold afterBlockLength
  split
  · exact .of_op hop rfl
  · split
    · exact writesIn_failed hop _
    · exact .of_op hop rfl

end

section
variable {s : State}

theorem writesIn_afterReadBlock (hop : s.op = .read) : WritesIn s.op s (afterReadBlock s) := by
  unfold afterReadBlock
  dsimp only
  split <;> exact .of_op hop rfl

theorem writesIn_afterWriteBlock (hop : s.op = .write) : WritesIn s.op s (afterWriteBlock s) := by
  unfold afterWriteBlock
  split <;> exact .of_op hop rfl

theorem writesIn_parseCsd (hop : s.op = .qcount) : WritesIn s.op s (parseCsd s) := by
  have ho : usesBus s.op := hop ▸ .inr (.inr (.inr rfl))
  unfold parseCsd
  split
  · exact writesIn_raiseFail ho _
  · split
    · exact writesIn_raiseFail ho _
    · exact .of_op hop rfl

end

/-- The operation in whose phases a command is called. -/
theorem spanEnd_op {c : Cmd} {p : Phase} (h : spanEnd c p = true) : p.op? = some (homeOp c) := by
  cases c <;> simp only [spanEnd, cmdPlace, Bool.or_eq_true, beq_iff_eq] at h
  case cmd55 => rcases h with (rfl | rfl) | rfl <;> rfl
  case acmd41Legacy => rcases h with rfl | rfl <;> rfl
  all_goals subst h; rfl

theorem trailPlace_op {c : Cmd} {p : Phase} (h : trailPlace c p = true) : p.op? = some .init := by
  cases c <;> simp only [trailPlace, beq_iff_eq, reduceCtorEq] at h
  case cmd8 => subst h; rfl
  case cmd58 => subst h; rfl

section
variable {s : State} (h : Inv s)
include h

theorem Inv.op_eq {o : Op} {p : Phase} (hph : s.phase = p) (hp : p.op? = some o) : s.op = o :=
  h.operation o (hph ▸ hp)

theorem Inv.usesBus (hfly : s.phase ≠ .idle) : usesBus s.op := by
  cases hop : s.phase.op? with
  | none => exact absurd (Phase.op?_eq_none.1 hop) hfly
  | some o => exact h.operation o hop ▸ usesBus_of_phase hop

theorem writesIn_afterRelease (hfly : s.phase ≠ .idle) {a : After} (hp : s.pos = .release a) :
    WritesIn s.op s (afterRelease a s) := by
  cases a with
  | raise f => exact writesIn_raiseFail (h.usesBus hfly) f
  | done c =>
    have hop : s.op = homeOp c := h.operation _ (spanEnd_op (h.spanEnded hp))
    cases c
    case cmd0 => exact writesIn_afterReset hop
    case cmd8 => exact writesIn_afterVoltageCheck hop
    case cmd55 => exact writesIn_afterMarker hop
    case acmd41Hcs => exact writesIn_afterSdv2OpCond hop
    case acmd41Legacy => exact writesIn_afterLegacyOpCond hop
    case cmd58 => exact writesIn_afterOcr hop
    case cmd1 => exact writesIn_afterLegacyInitiate hop
    case cmd16 => exact writesIn_afterBlockLength hop
    case cmd17 => exact writesIn_afterReadBlock hop
    case cmd24 => exact writesIn_afterWriteBlock hop
    case cmd9 => exact writesIn_parseCsd hop

theorem writesIn_dataByte (hp : s.pos = .data) {b : Byte} {t : State} (ht : dataByte b s = .next t) :
    WritesIn s.op s t := by
  have hplace := h.placeAt hp
  unfold dataByte at ht
  split at ht
  · rename_i hq
    cases ht
    exact writesIn_csdByte (h.op_eq hq rfl) b
  · rename_i hq
    cases (withinBuffer_next ht).2
    have hop : s.op = .read := h.op_eq ((phase_or hplace).resolve_right hq) rfl
    have hstore : WritesIn s.op s { s with hostbuf := s.hostbuf.write (bufOffset s.cfg s.blk s.idx) b } := .of_op hop rfl
    exact hstore.trans (writesIn_afterDataByte (s := { s with hostbuf := _ }) hop)

theorem writesIn_idleExchanged (hfly : s.phase ≠ .idle) {b : Byte} {t : State} (ht : idleExchanged b s = .next t) :
    WritesIn s.op s t := by
  have ho := h.usesBus hfly
  have hplace := h.place
  cases hp : s.pos <;> rw [hp] at hplace <;>
    simp only [idleExchanged, hp, Host.Outcome.next.injEq, reduceCtorEq] at ht
  case data => exact writesIn_dataByte h hp ht
  all_goals subst ht
  case powerOn => exact writesIn_powerOnByte ho _
  case poll => exact writesIn_pollByte ho _ b
  case trail0 => exact .bus ho rfl
  case trail1 => exact .bus ho rfl
  case trail2 => exact .bus ho rfl
  case trail3 => exact .of_op (h.operation _ (trailPlace_op hplace)) rfl
  case tokenWait =>
    exact writesIn_tokenByte ho ((phase_or hplace).imp (h.op_eq · rfl) (h.op_eq · rfl)) b
  case crc => exact writesIn_crcByteReceived ho _
  case leadDummy => exact .bus ho rfl
  case stub => exact writesIn_afterStub ho _
  case dresp => exact writesIn_drespByte (h.op_eq (eq_of_beq hplace) rfl) b
  case busyWait => exact writesIn_busyByte (h.op_eq (eq_of_beq hplace) rfl) b
  case release => exact writesIn_afterRelease h hfly hp

/-! ## Every step of an operation in flight -/

theorem writesIn_sendsIdle (hfly : s.phase ≠ .idle) (hx : sendsIdle s.pos = true) {t : State}
    (ht : blockStep s = .next t) : WritesIn s.op s t := by
  rw [blockStep_sendsIdle hx] at ht
  exact writesIn_exchange (h.usesBus hfly) (fun hk => writesIn_idleExchanged (h.exchanged _ _) hfly hk) ht

theorem writesIn_leadToken (hfly : s.phase ≠ .idle) (hp : s.pos = .leadToken) {t : State} (ht : blockStep s = .next t) :
    WritesIn s.op s t := by
  have hop : s.op = .write := h.op_eq (eq_of_beq (h.placeAt hp)) rfl
  rw [blockStep_leadToken hp] at ht
  exact writesIn_exchange (h.usesBus hfly) (fun hk => by cases hk; exact .of_op hop rfl) ht

theorem writesIn_sendData (hfly : s.phase ≠ .idle) (hp : s.pos = .sendData) {t : State} (ht : blockStep s = .next t) :
    WritesIn s.op s t := by
  have hop : s.op = .write := h.op_eq (eq_of_beq (h.placeAt hp)) rfl
  rw [blockStep_sendData hp] at ht
  obtain ⟨-, ht⟩ := withinBuffer_next ht
  exact writesIn_exchange (h.usesBus hfly) (fun hk => by cases hk; exact writesIn_afterSentByte hop) ht

theorem writesIn_frame (hfly : s.phase ≠ .idle) {c : Cmd} {k : Fin 6} (hp : s.pos = .frame c k) {t : State}
    (ht : blockStep s = .next t) : WritesIn s.op s t := by
  rw [blockStep_frame hp] at ht
  have ho := h.usesBus hfly
  exact writesIn_exchange ho (fun {i _} hk => by cases hk; exact writesIn_afterFrameByte (s := exchanged _ i s) ho c k) ht

theorem writesIn_blockStep (hfly : s.phase ≠ .idle) {t : State} (ht : blockStep s = .next t) : WritesIn s.op s t := by
  have ho := h.usesBus hfly
  by_cases hx : sendsIdle s.pos = true
  · exact writesIn_sendsIdle h hfly hx ht
  have hplace := h.place
  cases hp : s.pos <;> rw [hp] at hplace <;> simp only [hp, sendsIdle, not_true_eq_false] at hx
  case idle => exact absurd (eq_of_beq hplace) hfly
  case done => exact absurd (eq_of_beq hplace) hfly
  case sendData => exact writesIn_sendData h hfly hp ht
  case frame => exact writesIn_frame h hfly hp ht
  case leadToken => exact writesIn_leadToken h hfly hp ht
  case issue => rw [blockStep_issue hp, exec_command _ hp] at ht; cases ht; exact .bus ho rfl
  case deselect => rw [blockStep_deselect hp] at ht; cases ht; exact .bus ho rfl
  case abort =>
    rw [blockStep_abort hp] at ht; cases ht
    have hcs : WritesIn s.op s (driveCs .deasserted s) := .bus ho rfl
    exact hcs.trans (writesIn_raiseFail (s := driveCs .deasserted s) ho _)
  case clkSlow =>
    have hop : s.op = .init := h.op_eq (eq_of_beq hplace) rfl
    rw [blockStep_clkSlow hp] at ht; cases ht
    unfold clockDown
    dsimp only
    split <;> exact .of_op hop rfl
  case csForce => nomatch hplace
  case clkFast =>
    have hop : s.op = .init := h.op_eq (eq_of_beq hplace) rfl
    rw [blockStep_clkFast hp] at ht; cases ht
    exact .of_op hop rfl

end

/-! ## The START step -/

/-- The START step of operation `o` from `s`, its buffer presented, to `t`. -/
structure StartWrites (o : Op) (sector count : Word) (s t : State) : Prop where
  set : t = writtenBy o s t
  op : t.op = o
  sector : t.sector = sector
  count : t.count = count

theorem startWrites_of_startOp {s t : State} {o : Op} {sector count : Word} {body : State → State} (hp : s.pos = .idle)
    (hb : StartWrites o sector count s (body (started o sector count s))) (ht : startOp o sector count body s = .next t) :
    StartWrites o sector count s t := by
  rw [startOp_idle hp] at ht
  cases ht
  exact hb

theorem startWrites_admitBlocks {s : State} {o : Op} {sector count : Word} {body : State → State}
    (hb : StartWrites o sector count s (body (started o sector count s))) :
    StartWrites o sector count s (admitBlocks body (started o sector count s)) := by
  have hrefused (st : Status) : StartWrites o sector count s (refuse st (started o sector count s)) := by
    cases o <;> exact ⟨rfl, rfl, rfl, rfl⟩
  unfold admitBlocks
  split
  · split
    · exact hb
    · exact hrefused _
  · exact hrefused _

theorem startWrites_exec {s t : State} (hp : s.pos = .idle) {op : BitVec 3} {sector count : Word}
    (ht : exec (decodeOp op sector count) s = .next t) : StartWrites (Op.ofCode op) sector count s t := by
  match op with
  | 0 => exact startWrites_of_startOp hp ⟨rfl, rfl, rfl, rfl⟩ ht
  | 1 => exact startWrites_of_startOp hp (startWrites_admitBlocks ⟨rfl, rfl, rfl, rfl⟩) ht
  | 2 => exact startWrites_of_startOp hp (startWrites_admitBlocks ⟨rfl, rfl, rfl, rfl⟩) ht
  | 3 => simp only [decodeOp, exec, execGetver] at ht; exact startWrites_of_startOp hp ⟨rfl, rfl, rfl, rfl⟩ ht
  | 4 =>
    simp only [decodeOp, exec, execQcount] at ht
    refine startWrites_of_startOp hp ?_ ht
    split
    · split <;> exact ⟨rfl, rfl, rfl, rfl⟩
    · exact ⟨rfl, rfl, rfl, rfl⟩
  | 5 => simp only [decodeOp, exec, execQsize] at ht; exact startWrites_of_startOp hp ⟨rfl, rfl, rfl, rfl⟩ ht
  | 6 => exact startWrites_of_startOp hp ⟨rfl, rfl, rfl, rfl⟩ ht
  | 7 => exact startWrites_of_startOp hp ⟨rfl, rfl, rfl, rfl⟩ ht

theorem Op.ofCode_code (op : BitVec 3) : (Op.ofCode op).code = op := by
  match op with
  | 0 | 1 | 2 | 3 | 4 | 5 | 6 | 7 => rfl

/-- The queues are no registers: which of them a START leaves does not matter to the buffer it presents, nor to its write set. -/
theorem presented_queues (op : BitVec 3) (count : Word) (buffer : List Byte) (host : List HostMove) (sched : List Mover)
    (s : State) : presented op count buffer { s with host := host, sched := sched } =
      { presented op count buffer s with host := host, sched := sched } := by
  unfold presented
  split <;> rfl

theorem writtenBy_queues (o : Op) (host : List HostMove) (sched : List Mover) (s t : State) :
    writtenBy o { s with host := host, sched := sched } t = writtenBy o s t := by
  cases o <;> rfl

/-- Settles O58: in flight, every position writes inside the set of the operation its phase belongs to; a START, operation by
operation. -/
theorem operationsWriteTheirOwnSet : Obligations.OperationsWriteTheirOwnSet := by
  intro s t h hn hst
  rw [step_turned hn h.config] at hst
  have hturned : Inv (turned s) := h.unread rfl
  refine ⟨fun hfly => ?inFlight, fun op sector count buffer hs hp hh => ?start⟩
  case inFlight =>
    have hw : WritesIn s.op s (turned s) := .bus (h.usesBus hfly) rfl
    exact (hw.trans (writesIn_blockStep hturned hfly hst)).facts
  case start =>
    rw [blockStep_start (s := turned s) hp hh] at hst
    have hq : (presented op count buffer { turned s with host := hs }).pos = .idle := by rw [presented_frame]; exact hp
    obtain ⟨hset, hop, hsector, hcount⟩ := startWrites_exec hq hst
    refine ⟨?_, by rw [hop, Op.ofCode_code], hsector, hcount⟩
    calc t = writtenBy t.op (presented op count buffer { s with host := hs, sched := s.sched.drop 1 }) t := hop ▸ hset
      _ = writtenBy t.op (presented op count buffer s) t := by rw [presented_queues, writtenBy_queues]

end Sys2Proof.Machine
end

section
/-! PROOFS. What a step can do to the host's buffers: a received byte, an exchange and every other event keep them, but for the byte
a READ stores, the idle host's own byte and the buffer a START presents (O59). -/

namespace Sys2Proof.Machine

/-- The buffer of the newest READ or WRITE and those before it (20 R51, log 15). -/
def hostBuffers (s : State) : Memory × List Memory := (s.hostbuf, s.earlier)

/-! ## What keeps the buffers -/

@[simp] theorem exchanged_buffers (o i : Byte) (s : State) : hostBuffers (exchanged o i s) = hostBuffers s := rfl

@[simp] theorem raiseFail_buffers (f : Fail) (s : State) : hostBuffers (raiseFail f s) = hostBuffers s := by
  rw [raiseFail_frame]; rfl

@[simp] theorem timedOut_buffers (o : Byte) (s : State) : hostBuffers (timedOut o s) = hostBuffers s := by
  rw [timedOut_frame]; rfl

@[simp] theorem afterRelease_buffers (a : After) (s : State) : hostBuffers (afterRelease a s) = hostBuffers s := by
  rw [afterRelease_frame]; rfl

@[simp] theorem afterPoll_buffers (c : Cmd) (s : State) : hostBuffers (afterPoll c s) = hostBuffers s := by
  rw [(afterPoll_frame c s).1]; rfl

@[simp] theorem pollByte_buffers (c : Cmd) (b : Byte) (s : State) : hostBuffers (pollByte c b s) = hostBuffers s := by
  unfold pollByte
  dsimp only
  split
  · exact afterPoll_buffers c _
  · rfl

@[simp] theorem powerOnByte_buffers (sent : Nat) (s : State) : hostBuffers (powerOnByte sent s) = hostBuffers s := by
  unfold powerOnByte
  split <;> rfl

@[simp] theorem lastTrailingByte_buffers (c : Cmd) (t0 t1 t2 t3 : Byte) (s : State) :
    hostBuffers (lastTrailingByte c t0 t1 t2 t3 s) = hostBuffers s := rfl

@[simp] theorem tokenByte_buffers (b : Byte) (s : State) : hostBuffers (tokenByte b s) = hostBuffers s := by
  unfold tokenByte
  split
  · split <;> rfl
  · rfl
  · split <;> rfl

theorem csdByte_buffers (b : Byte) (s : State) : hostBuffers (csdByte b s) = hostBuffers s := by
  unfold csdByte
  dsimp only
  split <;> rfl

theorem afterDataByte_buffers (s : State) : hostBuffers (afterDataByte s) = hostBuffers s := by
  unfold afterDataByte
  split <;> rfl

@[simp] theorem crcByteReceived_buffers (second : Bool) (s : State) :
    hostBuffers (crcByteReceived second s) = hostBuffers s := by
  unfold crcByteReceived
  split <;> rfl

theorem afterSentByte_buffers (s : State) : hostBuffers (afterSentByte s) = hostBuffers s := by
  unfold afterSentByte
  split <;> rfl

@[simp] theorem afterStub_buffers (second : Bool) (s : State) : hostBuffers (afterStub second s) = hostBuffers s := by
  unfold afterStub
  split <;> rfl

@[simp] theorem drespByte_buffers (b : Byte) (s : State) : hostBuffers (drespByte b s) = hostBuffers s := by
  unfold drespByte
  dsimp only
  split <;> rfl

@[simp] theorem busyByte_buffers (b : Byte) (s : State) : hostBuffers (busyByte b s) = hostBuffers s := by
  unfold busyByte
  split
  · rfl
  · split <;> rfl

theorem afterFrameByte_buffers (c : Cmd) (k : Fin 6) (s : State) : hostBuffers (afterFrameByte c k s) = hostBuffers s := by
  unfold afterFrameByte
  split <;> rfl

theorem clockDown_buffers (s : State) : hostBuffers (clockDown s) = hostBuffers s := by
  unfold clockDown
  dsimp only
  split <;> rfl

/-- A byte received anywhere but in a data phase. -/
theorem idleExchanged_buffers {b : Byte} {s t : State} (hdata : s.pos ≠ .data) (h : idleExchanged b s = .next t) :
    hostBuffers t = hostBuffers s := by
  cases hp : s.pos <;> simp only [idleExchanged, hp, Host.Outcome.next.injEq, reduceCtorEq] at h
  case data => exact absurd hp hdata
  case trail0 | trail1 | trail2 | leadDummy => subst h; rfl
  all_goals subst h; simp

theorem exchange_buffers {o : Byte} {k : Byte → State → Result} {s t : State}
    (hk : ∀ {i v}, k i (exchanged o i s) = .next v → hostBuffers v = hostBuffers s) (h : exchange o k s = .next t) :
    hostBuffers t = hostBuffers s := by
  rcases exchange_cases h with ⟨-, rfl⟩ | ⟨i, rest, -, hi⟩ | ⟨rest, -, rfl⟩
  · rfl
  · exact hk hi
  · exact timedOut_buffers o s

/-- The START step itself, its buffer presented before: READ alone has the buffer in its write set (O58), and only calls its first
command. -/
theorem exec_decodeOp_buffers {s t : State} (hp : s.pos = .idle) {op : BitVec 3} {sector count : Word}
    (ht : exec (decodeOp op sector count) s = .next t) : hostBuffers t = hostBuffers s := by
  obtain ⟨hset, -, -, -⟩ := startWrites_exec hp ht
  match op with
  | 1 =>
    cases (startOp_idle hp).symm.trans ht
    unfold admitBlocks
    split
    · split <;> rfl
    · rfl
  | 0 | 2 | 3 | 4 | 5 | 6 | 7 => exact (congrArg hostBuffers hset).trans rfl

/-! ## What a step can do to them -/

/-- A READ stores the data byte `b` (43 R174, 20 R52). -/
structure StoresByte (b : Byte) (s t : State) : Prop where
  op : s.op = .read
  phase : s.phase = .rdData
  inside : s.blk.toNat * 512 + s.idx.toNat < s.count.toNat * 512
  buffers : hostBuffers t = (s.hostbuf.write (s.blk.toNat * 512 + s.idx.toNat) b, s.earlier)

/-- Everything a step of the block can do to the host's buffers. -/
inductive BufferStep (s t : State) : Prop where
  | kept (h : hostBuffers t = hostBuffers s)
  | stored (b : Byte) (rest : List Answer) (hcard : s.card = .byte b :: rest) (h : StoresByte b s t)
  | poked (off : Nat) (b : Byte) (hs : List HostMove) (hp : s.pos = .idle) (hh : s.host = .poke off b :: hs)
    (h : hostBuffers t = (s.hostbuf.write off b, s.earlier))
  | presented (op : BitVec 3) (sector count : Word) (buffer : List Byte) (hs : List HostMove) (hp : s.pos = .idle)
    (hh : s.host = .start op sector count buffer :: hs) (hop : op = 1 ∨ op = 2)
    (h : hostBuffers t = (Memory.ofBytesAt 0 (buffer.take (count.toNat * 512)), s.hostbuf :: s.earlier))

/-- The scheduler's turn is no part of what a step does to the buffers. -/
theorem BufferStep.of_scheduled {s t : State} (h : BufferStep (scheduled s) t) : BufferStep s t :=
  match h with
  | .kept hbuf => .kept hbuf
  | .stored b rest hcard ⟨hop, hph, hin, hbuf⟩ => .stored b rest hcard ⟨hop, hph, hin, hbuf⟩
  | .poked off b hs hp hh hbuf => .poked off b hs hp hh hbuf
  | .presented op sector count buffer hs hp hh hop hbuf => .presented op sector count buffer hs hp hh hop hbuf

section
variable {s t : State} (h : Inv s)
include h

/-- A data byte goes into `csd`, or into the buffer of the READ in flight. -/
theorem Inv.dataByte_buffers (hp : s.pos = .data) {b : Byte} (ht : Machine.dataByte b s = .next t) :
    hostBuffers t = hostBuffers s ∨ StoresByte b s t := by
  unfold Machine.dataByte at ht
  split at ht
  · cases ht
    exact .inl (csdByte_buffers b s)
  · rename_i hq
    have hph : s.phase = .rdData := (phase_or (h.placeAt hp)).resolve_right hq
    obtain ⟨hlen, -⟩ := Config.ok_facts h.config
    obtain ⟨hin, ht⟩ := withinBuffer_next ht
    simp only [bufOffset, bufSize, hlen] at hin ht
    cases ht
    exact .inr ⟨h.op_eq hph rfl, hph, hin, afterDataByte_buffers _⟩

theorem Inv.data_bufferStep (hp : s.pos = .data) (ht : Machine.blockStep s = .next t) : BufferStep s t := by
  rw [blockStep_sendsIdle (by rw [hp]; rfl)] at ht
  rcases exchange_cases ht with ⟨-, rfl⟩ | ⟨i, rest, hcard, hi⟩ | ⟨rest, -, rfl⟩
  · exact .kept rfl
  · simp only [Machine.idleExchanged, exchanged_pos, hp] at hi
    rcases (h.exchanged _ i).dataByte_buffers hp hi with hkept | ⟨hop, hph, hin, hbuf⟩
    · exact .kept hkept
    · exact .stored i rest hcard ⟨hop, hph, hin, hbuf⟩
  · exact .kept (timedOut_buffers _ s)

theorem Inv.idle_bufferStep (hp : s.pos = .idle) (ht : Machine.blockStep s = .next t) : BufferStep s t := by
  match hh : s.host with
  | [] => rw [blockStep_idle hp hh] at ht; cases ht; exact .kept rfl
  | .poke off b :: hs => rw [blockStep_poke hp hh] at ht; cases ht; exact .poked off b hs hp hh rfl
  | .reset :: hs => rw [blockStep_hardwareReset hp hh] at ht; cases ht; exact .kept rfl
  | .start op sector count buffer :: hs =>
    rw [blockStep_start hp hh] at ht
    have hq : (Machine.presented op count buffer { s with host := hs }).pos = .idle := by rw [presented_frame]; exact hp
    have hexec := exec_decodeOp_buffers hq ht
    obtain ⟨hlen, -⟩ := Config.ok_facts h.config
    unfold Machine.presented at hexec
    split at hexec
    · rename_i hop
      exact .presented op sector count buffer hs hp hh hop (by rw [hexec, bufSize, hlen]; rfl)
    · exact .kept hexec

theorem Inv.bufferStep (ht : Machine.blockStep s = .next t) : BufferStep s t := by
  by_cases hdata : s.pos = .data
  · exact h.data_bufferStep hdata ht
  by_cases hidle : s.pos = .idle
  · exact h.idle_bufferStep hidle ht
  refine .kept ?_
  by_cases hx : Machine.sendsIdle s.pos = true
  · rw [blockStep_sendsIdle hx] at ht
    exact exchange_buffers (fun {i _} hk => idleExchanged_buffers (s := Machine.exchanged _ i s) hdata hk) ht
  cases hp : s.pos <;> simp only [hp, Machine.sendsIdle, not_true_eq_false] at hx
  case idle => exact absurd hp hidle
  case frame c k =>
    rw [blockStep_frame hp] at ht
    exact exchange_buffers (fun hk => by cases hk; exact afterFrameByte_buffers c k _) ht
  case leadToken =>
    rw [blockStep_leadToken hp] at ht
    exact exchange_buffers (fun hk => by cases hk; rfl) ht
  case sendData =>
    rw [blockStep_sendData hp] at ht
    obtain ⟨-, ht⟩ := withinBuffer_next ht
    exact exchange_buffers (fun hk => by cases hk; exact afterSentByte_buffers _) ht
  case issue c => rw [blockStep_issue hp, exec_command _ hp] at ht; cases ht; rfl
  case deselect a => rw [blockStep_deselect hp] at ht; cases ht; rfl
  case abort => rw [blockStep_abort hp] at ht; cases ht; exact raiseFail_buffers _ _
  case clkSlow => rw [blockStep_clkSlow hp] at ht; cases ht; exact clockDown_buffers s
  case csForce => rw [blockStep_csForce hp] at ht; cases ht; rfl
  case clkFast => rw [blockStep_clkFast hp] at ht; cases ht; rfl
  case done => rw [blockStep_done hp] at ht; cases ht; rfl

/-- Everything a step can do to the host's buffers; a tick keeps them. -/
theorem Inv.step_bufferStep (ht : step s = .next t) : BufferStep s t := by
  obtain ⟨-, ⟨-, rfl⟩ | ⟨-, hb⟩⟩ := step_cases ht
  · exact .kept rfl
  · exact (h.scheduled.bufferStep hb).of_scheduled

end

/-- A write changes at most the byte it writes, and that to the value written. -/
theorem Memory.eq_of_write_changes {m : Memory} (hm : Memory.wf m) {k off : Nat} {v : Byte}
    (h : (m.write k v).read off ≠ m.read off) : off = k ∧ (m.write k v).read off = v := by
  rw [Memory.read_write k v hm] at h ⊢
  by_cases hk : off = k
  · exact ⟨hk, if_pos hk⟩
  · exact absurd (if_neg hk) h

/-- Settles O59: by what the step does to the buffers; a byte that is stored, or written by the host, changes its own offset alone. -/
theorem bufferChangesOnlyWhereStored : Obligations.BufferChangesOnlyWhereStored := by
  intro s t h ht
  have hphase (hp : s.pos = .idle) : s.phase = .idle := eq_of_beq (h.placeAt hp)
  cases h.step_bufferStep ht with
  | kept hbuf =>
    obtain ⟨hnew, hold⟩ := Prod.mk.inj hbuf
    exact .inl ⟨hold, fun off hne => absurd (congrArg (Memory.read · off) hnew) hne⟩
  | stored b rest hcard hstore =>
    obtain ⟨hop, hph, hin, hbuf⟩ := hstore
    obtain ⟨hnew, hold⟩ := Prod.mk.inj hbuf
    refine .inl ⟨hold, fun off hne => .inl ?_⟩
    rw [hnew] at hne ⊢
    obtain ⟨rfl, hv⟩ := Memory.eq_of_write_changes h.buffer hne
    exact ⟨hop, hph, rfl, hin, rest, hv.symm ▸ hcard⟩
  | poked k b hs hp hh hbuf =>
    obtain ⟨hnew, hold⟩ := Prod.mk.inj hbuf
    refine .inl ⟨hold, fun off hne => .inr ⟨hphase hp, hp, hs, ?_⟩⟩
    rw [hnew] at hne ⊢
    obtain ⟨rfl, hv⟩ := Memory.eq_of_write_changes h.buffer hne
    exact hv.symm ▸ hh
  | presented op sector count buffer hs hp hh hop hbuf =>
    obtain ⟨hnew, hold⟩ := Prod.mk.inj hbuf
    refine .inr ⟨hphase hp, hp, op, sector, count, buffer, hs, hh, hop, hold, fun off => ?_⟩
    rw [hnew]
    exact Memory.read_ofBytesAt _ off

end Sys2Proof.Machine
end

section
/-! PROOFS. The encoder and the decoders of the ports are inverse to each other, what no row encodes to is refused under its own name,
and the fields and CRC bytes of the frames (O1 to O5). -/

namespace Sys2Proof.Machine

/-! ## What each port reads -/

/-- The bytes a port reads at the head of its input, and the row it decodes from them. -/
inductive Decodes (c : Config) : Port → List Byte → Instr → Prop where
  | frame {b0 b1 b2 b3 b4 b5 : Byte} {i : Instr} :
      decodeFrame c b0 b1 b2 b3 b4 b5 = .ok i → Decodes c .frame [b0, b1, b2, b3, b4, b5] i
  | host {o : Byte} (s0 s1 s2 s3 n0 n1 n2 n3 : Byte) : o &&& 0xF8 = 0 →
      Decodes c .host [o, s0, s1, s2, s3, n0, n1, n2, n3]
        (decodeOp (o.setWidth 3) (packWord s0 s1 s2 s3) (packWord n0 n1 n2 n3))
  | r1 {b : Byte} {i : Instr} : decodeR1 b = i → Decodes c .r1 [b] i
  | token {b : Byte} {i : Instr} : decodeToken c b = .ok i → Decodes c .token [b] i
  | dresp {b : Byte} {i : Instr} : decodeDresp c b = .ok i → Decodes c .dresp [b] i

/-- A row read with bytes after it comes from a decoder that answers. -/
theorem map_pair_eq_ok {x : Except Reject Instr} {i : Instr} {rest tail : List Byte}
    (h : x.map (·, tail) = .ok (i, rest)) : x = .ok i ∧ tail = rest := by
  cases x with
  | error r => cases h
  | ok j => cases h; exact ⟨rfl, rfl⟩

/-- The decoder of a port reads a head of its input and leaves the bytes after it. -/
theorem decode_eq_ok_iff {c : Config} {p : Port} {bytes rest : List Byte} {i : Instr} :
    decode c p bytes = .ok (i, rest) ↔ ∃ head, Decodes c p head i ∧ bytes = head ++ rest := by
  constructor
  · intro h
    unfold decode at h
    split at h
    case h_1 => obtain ⟨hi, rfl⟩ := map_pair_eq_ok h; exact ⟨_, .frame hi, rfl⟩
    case h_2 =>
      split at h
      · cases h; exact ⟨_, .host _ _ _ _ _ _ _ _ ‹_›, rfl⟩
      · cases h
    case h_3 => cases h; exact ⟨_, .r1 rfl, rfl⟩
    case h_4 => obtain ⟨hi, rfl⟩ := map_pair_eq_ok h; exact ⟨_, .token hi, rfl⟩
    case h_5 => obtain ⟨hi, rfl⟩ := map_pair_eq_ok h; exact ⟨_, .dresp hi, rfl⟩
    case h_6 => cases h
  · rintro ⟨head, hread, rfl⟩
    cases hread with
    | frame hi => exact congrArg (Except.map (·, rest)) hi
    | host _ _ _ _ _ _ _ _ hlow => exact if_pos hlow
    | r1 hi => exact congrArg (fun j => Except.ok (j, rest)) hi
    | token hi => exact congrArg (Except.map (·, rest)) hi
    | dresp hi => exact congrArg (Except.map (·, rest)) hi

theorem Decodes.of_decode {c : Config} {p : Port} {bytes : List Byte} {i : Instr} (h : decode c p bytes = .ok (i, [])) :
    Decodes c p bytes i := by
  obtain ⟨head, hread, rfl⟩ := decode_eq_ok_iff.1 h
  rwa [List.append_nil]

/-! ## The rows of a command and of a host operation -/

theorem argument_argument (c : Config) (a : Word) (cmd : Cmd) :
    cmd.argument c (cmd.argument c a) = cmd.argument c a := by
  cases cmd <;> rfl

/-- A command with a constant argument is the same row whatever it is called with. -/
theorem toInstr_argument (c : Config) (a : Word) (cmd : Cmd) : cmd.toInstr (cmd.argument c a) = cmd.toInstr a := by
  cases cmd <;> rfl

theorem encode_toInstr (c : Config) (a : Word) (cmd : Cmd) : encode c (cmd.toInstr a) = encodeCmd c cmd a := by
  cases cmd <;> rfl

theorem port_toInstr (a : Word) (cmd : Cmd) : (cmd.toInstr a).port = .frame := by
  cases cmd <;> rfl

theorem wf_toInstr (c : Config) (a : Word) (cmd : Cmd) : (cmd.toInstr a).wf c = true := by
  cases cmd <;> rfl

section
variable (c : Config) (op : BitVec 3) (sector count : Word)

theorem encode_decodeOp : encode c (decodeOp op sector count) = encodeOp op sector count := by
  unfold decodeOp; split <;> rfl

theorem port_decodeOp : (decodeOp op sector count).port = .host := by
  unfold decodeOp; split <;> rfl

theorem wf_decodeOp : (decodeOp op sector count).wf c = true := by
  unfold decodeOp; split <;> rfl

end

/-- Whatever the configuration, a decoded command has the index it was decoded from. -/
theorem index_of_commandOf {c : Config} {index : BitVec 6} {a : Word} {cmd : Cmd} (h : commandOf c index a = .ok cmd) :
    cmd.index c = index := by
  unfold commandOf at h
  split_ifs at h <;> cases h <;> exact Eq.symm ‹index = _›

/-- A frame that decodes is the frame of a command, and its row is that command's. -/
theorem eq_encodeCmd_of_decodeFrame {c : Config} {b0 b1 b2 b3 b4 b5 : Byte} {i : Instr}
    (h : decodeFrame c b0 b1 b2 b3 b4 b5 = .ok i) :
    ∃ cmd a, i = Cmd.toInstr a cmd ∧ [b0, b1, b2, b3, b4, b5] = encodeCmd c cmd a := by
  unfold decodeFrame at h
  dsimp only at h
  split at h
  · cases h
  next hstart =>
  split at h
  · cases h
  next cmd hcmd =>
  split at h
  · cases h
  next harg =>
  split at h
  · cases h
  next hcrc =>
  cases h
  obtain ⟨hb1, hb2, hb3, hb4⟩ := wordByte_packWord b1 b2 b3 b4
  refine ⟨cmd, _, rfl, ?_⟩
  rw [encodeCmd, ← not_not.1 harg, index_of_commandOf hcmd]
  simp [frameOf, hb1, hb2, hb3, hb4, ← not_not.1 hcrc, ← not_not.1 hstart]

/-! ## Decoding what was encoded -/

theorem decodes_encodeCmd {c : Config} (hc : c.ok = true) (hd : c.decodable = true) (cmd : Cmd) (a : Word) :
    Decodes c .frame (encodeCmd c cmd a) (cmd.toInstr a) := by
  rw [← toInstr_argument c]
  exact .of_decode (decode_frameOf hc hd (argument_argument c a cmd).symm)

theorem decodes_encodeOp (c : Config) (op : BitVec 3) (sector count : Word) :
    Decodes c .host (encodeOp op sector count) (decodeOp op sector count) :=
  .of_decode (decode_encodeOp c op sector count)

/-- Bit 7 tells the two R1 rows apart. -/
theorem decodeR1_of_wf {c : Config} {b : Byte} :
    ((Instr.r1NotReady b).wf c = true → decodeR1 b = .r1NotReady b)
    ∧ ((Instr.r1Valid b).wf c = true → decodeR1 b = .r1Valid b) := by
  simp only [Instr.wf, beq_iff_eq, decodeR1]
  exact ⟨fun h => if_neg (by rw [h]; decide), fun h => if_pos h⟩

/-- The three patterns under `DR_MASK` differ, so the pattern of a byte tells its row. -/
theorem decodeDresp_of_wf {c : Config} (hc : c.ok = true) {b : Byte} :
    ((Instr.drespAccept b).wf c = true → decodeDresp c b = .ok (.drespAccept b))
    ∧ ((Instr.drespCrcErr b).wf c = true → decodeDresp c b = .ok (.drespCrcErr b))
    ∧ ((Instr.drespWriteErr b).wf c = true → decodeDresp c b = .ok (.drespWriteErr b)) := by
  obtain ⟨hac, haw, hcw⟩ := Config.ok_responses hc
  simp only [Instr.wf, beq_iff_eq, decodeDresp]
  refine ⟨fun h => ?_, fun h => ?_, fun h => ?_⟩
  · simp [h]
  · simp [h, hac.symm]
  · simp [h, haw.symm, hcw.symm]

/-- Every row is what its port decodes from the row's encoding. -/
theorem decodes_encode {c : Config} (hc : c.ok = true) (hd : c.decodable = true) :
    ∀ i : Instr, i.wf c = true → Decodes c i.port (encode c i) i
  | .cmd0, _ => decodes_encodeCmd hc hd .cmd0 0
  | .cmd8, _ => decodes_encodeCmd hc hd .cmd8 0
  | .cmd55, _ => decodes_encodeCmd hc hd .cmd55 0
  | .acmd41Hcs, _ => decodes_encodeCmd hc hd .acmd41Hcs 0
  | .acmd41Legacy, _ => decodes_encodeCmd hc hd .acmd41Legacy 0
  | .cmd58, _ => decodes_encodeCmd hc hd .cmd58 0
  | .cmd1, _ => decodes_encodeCmd hc hd .cmd1 0
  | .cmd16, _ => decodes_encodeCmd hc hd .cmd16 0
  | .cmd17 a, _ => decodes_encodeCmd hc hd .cmd17 a
  | .cmd24 a, _ => decodes_encodeCmd hc hd .cmd24 a
  | .cmd9, _ => decodes_encodeCmd hc hd .cmd9 0
  | .init s n, _ => decodes_encodeOp c 0 s n
  | .read s n, _ => decodes_encodeOp c 1 s n
  | .write s n, _ => decodes_encodeOp c 2 s n
  | .getver s n, _ => decodes_encodeOp c 3 s n
  | .qcount s n, _ => decodes_encodeOp c 4 s n
  | .qsize s n, _ => decodes_encodeOp c 5 s n
  | .reserved6 s n, _ => decodes_encodeOp c 6 s n
  | .reserved7 s n, _ => decodes_encodeOp c 7 s n
  | .tokenStart, _ => .token (if_pos rfl)
  | .idleByte, _ =>
    have ⟨_, _, hne⟩ := Config.decodable_facts hd
    .token ((if_neg hne).trans (if_pos rfl))
  | .r1NotReady _, h => .r1 (decodeR1_of_wf.1 h)
  | .r1Valid _, h => .r1 (decodeR1_of_wf.2 h)
  | .drespAccept _, h => .dresp ((decodeDresp_of_wf hc).1 h)
  | .drespCrcErr _, h => .dresp ((decodeDresp_of_wf hc).2.1 h)
  | .drespWriteErr _, h => .dresp ((decodeDresp_of_wf hc).2.2 h)

/-- Settles O2: a port reads a row's encoding as that row and leaves what follows. -/
theorem decodeOfEncode : Obligations.DecodeOfEncode :=
  fun _ i _ hc hd hwf => decode_eq_ok_iff.2 ⟨_, decodes_encode hc hd i hwf, rfl⟩

/-! ## Encoding what was decoded -/

/-- `i` is a well-formed row of port `p`, and `head` is its encoding. -/
def EncodesTo (c : Config) (p : Port) (head : List Byte) (i : Instr) : Prop :=
  i.port = p ∧ i.wf c = true ∧ head = encode c i

theorem encodesTo_of_decodeR1 (c : Config) (b : Byte) : EncodesTo c .r1 [b] (decodeR1 b) := by
  have hbit : b &&& 0x80 = 0 ∨ b &&& 0x80 = 0x80 := by revert b; decide
  unfold decodeR1
  split
  next h => exact ⟨rfl, beq_iff_eq.2 h, rfl⟩
  next h => exact ⟨rfl, beq_iff_eq.2 (hbit.resolve_left h), rfl⟩

theorem encodesTo_of_decodeToken {c : Config} {b : Byte} {i : Instr} (h : decodeToken c b = .ok i) :
    EncodesTo c .token [b] i := by
  unfold decodeToken at h
  split at h
  next hb => cases h; exact ⟨rfl, rfl, by rw [hb]; rfl⟩
  split at h
  next hb => cases h; exact ⟨rfl, rfl, by rw [hb]; rfl⟩
  cases h

theorem encodesTo_of_decodeDresp {c : Config} {b : Byte} {i : Instr} (h : decodeDresp c b = .ok i) :
    EncodesTo c .dresp [b] i := by
  unfold decodeDresp at h
  split at h
  next hb => cases h; exact ⟨rfl, beq_iff_eq.2 hb, rfl⟩
  split at h
  next hb => cases h; exact ⟨rfl, beq_iff_eq.2 hb, rfl⟩
  split at h
  next hb => cases h; exact ⟨rfl, beq_iff_eq.2 hb, rfl⟩
  cases h

theorem encodesTo_of_decodeFrame {c : Config} {b0 b1 b2 b3 b4 b5 : Byte} {i : Instr}
    (h : decodeFrame c b0 b1 b2 b3 b4 b5 = .ok i) : EncodesTo c .frame [b0, b1, b2, b3, b4, b5] i := by
  obtain ⟨cmd, a, rfl, hbytes⟩ := eq_encodeCmd_of_decodeFrame h
  exact ⟨port_toInstr a cmd, wf_toInstr c a cmd, hbytes.trans (encode_toInstr c a cmd).symm⟩

theorem encodesTo_of_decodeOp (c : Config) {o : Byte} (hlow : o &&& 0xF8 = 0) (s0 s1 s2 s3 n0 n1 n2 n3 : Byte) :
    EncodesTo c .host [o, s0, s1, s2, s3, n0, n1, n2, n3]
      (decodeOp (o.setWidth 3) (packWord s0 s1 s2 s3) (packWord n0 n1 n2 n3)) := by
  refine ⟨port_decodeOp _ _ _, wf_decodeOp c _ _ _, ?_⟩
  obtain ⟨hs0, hs1, hs2, hs3⟩ := wordByte_packWord s0 s1 s2 s3
  obtain ⟨hn0, hn1, hn2, hn3⟩ := wordByte_packWord n0 n1 n2 n3
  rw [encode_decodeOp, encodeOp, ← (op_byte_of_low o).1 hlow, hs0, hs1, hs2, hs3, hn0, hn1, hn2, hn3]

theorem Decodes.encodesTo {c : Config} {p : Port} {head : List Byte} {i : Instr} (h : Decodes c p head i) :
    EncodesTo c p head i := by
  cases h with
  | frame hi => exact encodesTo_of_decodeFrame hi
  | host _ _ _ _ _ _ _ _ hlow => exact encodesTo_of_decodeOp c hlow ..
  | r1 hi => exact hi ▸ encodesTo_of_decodeR1 c _
  | token hi => exact encodesTo_of_decodeToken hi
  | dresp hi => exact encodesTo_of_decodeDresp hi

/-- Settles O3: the bytes a port reads are the encoding of the row it decodes from them, whatever the configuration. -/
theorem encodeOfDecode : Obligations.EncodeOfDecode := by
  intro c p bytes rest i h
  obtain ⟨head, hread, rfl⟩ := decode_eq_ok_iff.1 h
  obtain ⟨hport, hwf, hhead⟩ := hread.encodesTo
  exact ⟨hport, hwf, congrArg (· ++ rest) hhead⟩

/-! ## What is no row -/

theorem decode_frame_eq_error {c : Config} {b0 b1 b2 b3 b4 b5 : Byte} {rest : List Byte} {r : Reject}
    (h : decodeFrame c b0 b1 b2 b3 b4 b5 = .error r) :
    decode c .frame (b0 :: b1 :: b2 :: b3 :: b4 :: b5 :: rest) = .error r :=
  congrArg (Except.map (·, rest)) h

/-- A frame without start bits 01 is refused before its index is read (30 R70). -/
theorem decodeFrame_badStartBits {c : Config} (hc : c.ok = true) {b0 : Byte} (htop : b0.extractLsb' 6 2 ≠ 1)
    (b1 b2 b3 b4 b5 : Byte) : decodeFrame c b0 b1 b2 b3 b4 b5 = .error .badStartBits := by
  obtain ⟨-, -, hstart, -⟩ := Config.ok_facts hc
  exact if_pos ((startByte_of_top hstart b0).not.2 htop)

theorem commandOf_unknownIndex {c : Config} {index : BitVec 6} (h : index ∉ c.indices) (a : Word) :
    commandOf c index a = .error .unknownIndex := by
  simp only [Config.indices, List.mem_cons, List.not_mem_nil, not_or] at h
  simp [commandOf, h]

theorem decodeFrame_unknownIndex {c : Config} (hc : c.ok = true) {b0 : Byte} (htop : b0.extractLsb' 6 2 = 1)
    (hindex : b0.extractLsb' 0 6 ∉ c.indices) (b1 b2 b3 b4 b5 : Byte) :
    decodeFrame c b0 b1 b2 b3 b4 b5 = .error .unknownIndex := by
  obtain ⟨-, -, hstart, -⟩ := Config.ok_facts hc
  have hindex' : b0.setWidth 6 ∉ c.indices := by rwa [← BitVec.setWidth_eq_extractLsb' (by omega)] at hindex
  simp [decodeFrame, ← (startByte_of_top hstart b0).2 htop, commandOf_unknownIndex hindex']

/-- An op byte above 7 has a bit above the three of `op` (30 R82). -/
theorem op_byte_high {o : Byte} (h : 7 < o.toNat) : o &&& 0xF8 ≠ 0 := by
  revert o
  decide

theorem decode_host_badOp (c : Config) {o : Byte} (h : 7 < o.toNat) {ops : List Byte} (hops : ops.length = 8)
    (rest : List Byte) : decode c .host (o :: ops ++ rest) = .error .badOp := by
  match ops, hops with
  | [_, _, _, _, _, _, _, _], _ => exact if_neg (op_byte_high h)

theorem decodeToken_notAToken {c : Config} {b : Byte} (hstart : b ≠ c.tokenStart) (hidle : b ≠ c.idleByte) :
    decodeToken c b = .error .notAToken :=
  (if_neg hstart).trans (if_neg hidle)

theorem decodeDresp_notADataResponse {c : Config} {b : Byte}
    (h : b &&& c.drMask ∉ [c.drAccept, c.drCrcErr, c.drWriteErr]) : decodeDresp c b = .error .notADataResponse := by
  simp only [List.mem_cons, List.not_mem_nil, or_false, not_or] at h
  obtain ⟨hacc, hcrc, hwr⟩ := h
  exact (if_neg hacc).trans ((if_neg hcrc).trans (if_neg hwr))

theorem index_mem_indices (c : Config) (cmd : Cmd) : cmd.index c ∈ c.indices := by
  cases cmd <;> simp [Config.indices, Cmd.index]

/-- Each of the ten indices stands for a command, whatever argument comes with it. -/
theorem exists_commandOf {c : Config} {index : BitVec 6} (h : index ∈ c.indices) (a : Word) :
    ∃ cmd, commandOf c index a = .ok cmd := by
  simp only [Config.indices, List.mem_cons, List.not_mem_nil, or_false] at h
  cases hcmd : commandOf c index a with
  | ok cmd => exact ⟨cmd, rfl⟩
  | error r =>
    unfold commandOf at hcmd
    split_ifs at hcmd
    tauto

section
variable {c : Config} {index : BitVec 6} {a : Word} {cmd : Cmd} (hc : c.ok = true) (hcmd : commandOf c index a = .ok cmd)
include hc hcmd

/-- An argument the command never carries is refused before the CRC byte is read (30 R72). -/
theorem decodeFrame_badArgument (ha : a ≠ cmd.argument c a) (crc : Byte) :
    decodeFrame c (startByte c index) (wordByte a 0) (wordByte a 1) (wordByte a 2) (wordByte a 3) crc
      = .error .badArgument := by
  obtain ⟨-, -, hstart, -⟩ := Config.ok_facts hc
  simp [decodeFrame, startByte_index hstart, packWord_wordByte, hcmd, ha]

theorem decodeFrame_badCrc (ha : a = cmd.argument c a) {crc : Byte} (hcrc : crc ≠ crcByte c index) :
    decodeFrame c (startByte c index) (wordByte a 0) (wordByte a 1) (wordByte a 2) (wordByte a 3) crc
      = .error .badCrc := by
  obtain ⟨-, -, hstart, -⟩ := Config.ok_facts hc
  simp [decodeFrame, startByte_index hstart, packWord_wordByte, hcmd, ← ha, hcrc]

end

theorem startByte_eq {c : Config} (hc : c.ok = true) (index : BitVec 6) :
    startByte c index = 0x40 ||| index.setWidth 8 := by
  obtain ⟨-, -, hstart, -⟩ := Config.ok_facts hc
  rw [startByte, hstart]

/-- Settles O4: each port's decoder makes its tests in the order in which the clauses exclude each other. -/
theorem reservedEncodingsRejected : Obligations.ReservedEncodingsRejected := by
  intro c b0 b1 b2 b3 b4 b5 rest hc
  refine ⟨fun htop => ?startBits, fun htop hindex => ?index, fun hop ops hops => decode_host_badOp c hop hops rest,
    fun hstart hidle => ?token, fun hresp => ?dresp, fun hd cmd a crc => ?operands⟩
  case startBits => exact decode_frame_eq_error (decodeFrame_badStartBits hc htop ..)
  case index => exact decode_frame_eq_error (decodeFrame_unknownIndex hc htop hindex ..)
  case token => exact congrArg (Except.map (·, rest)) (decodeToken_notAToken hstart hidle)
  case dresp => exact congrArg (Except.map (·, rest)) (decodeDresp_notADataResponse hresp)
  case operands =>
    rw [← startByte_eq hc]
    refine ⟨fun hother => ?_, fun ha hcrc => ?_⟩
    · obtain ⟨d, hcmd⟩ := exists_commandOf (index_mem_indices c cmd) a
      exact decode_frame_eq_error (decodeFrame_badArgument hc hcmd (hother d (index_of_commandOf hcmd)) crc)
    · exact decode_frame_eq_error (decodeFrame_badCrc hc (commandOf_index hd ha) ha hcrc)

/-! ## Fields and CRC bytes -/

/-- The two fixed bits of a frame's first byte, and the index below them (30 R70). -/
theorem startByte_fields {c : Config} (hc : c.ok = true) (index : BitVec 6) :
    (startByte c index).getLsbD 7 = false ∧ (startByte c index).getLsbD 6 = true
    ∧ (startByte c index).extractLsb' 0 6 = index := by
  rw [startByte_eq hc]
  revert index
  decide

/-- The three indices with a CRC byte of their own differ, and no other index has one (30 R71). -/
theorem crcByte_by_index {c : Config} (hd : c.decodable = true) :
    crcByte c c.idxReset = c.crcReset ∧ crcByte c c.idxVcheck = c.crcVcheck ∧ crcByte c c.idxOcr = c.crcOcr
    ∧ ∀ index, index ∉ [c.idxReset, c.idxVcheck, c.idxOcr] → crcByte c index = c.crcPlaceholder := by
  obtain ⟨hnodup, -, -⟩ := Config.decodable_facts hd
  have hvcheck : c.idxVcheck ≠ c.idxReset := fun h => by simp [Config.indices, h] at hnodup
  have hocr : c.idxOcr ≠ c.idxReset := fun h => by simp [Config.indices, h] at hnodup
  have hocr' : c.idxOcr ≠ c.idxVcheck := fun h => by simp [Config.indices, h] at hnodup
  refine ⟨if_pos rfl, ?_, ?_, fun index hindex => ?_⟩
  · simp [crcByte, hvcheck]
  · simp [crcByte, hocr, hocr']
  · simp only [List.mem_cons, List.not_mem_nil, or_false, not_or] at hindex
    simp [crcByte, hindex]

/-- The default CRC bytes are the CRC-7 fields of the frames sent with them (93 G3). -/
theorem default_crc_is_crc7Field : ∀ i ∈ [Instr.cmd0, Instr.cmd8, Instr.cmd58],
    (encode Config.default i)[5]? = some (crc7Field ((encode Config.default i).take 5)) := by
  have hreset : crc7Field [0x40, 0, 0, 0, 0] = 0x95 := by simp [crc7Field, crc7Byte, crc7Bit]
  have hvcheck : crc7Field [0x48, 0, 0, 0x01, 0xAA] = 0x87 := by simp [crc7Field, crc7Byte, crc7Bit]
  have hocr : crc7Field [0x7A, 0, 0, 0, 0] = 0xFD := by simp [crc7Field, crc7Byte, crc7Bit]
  simp only [List.forall_mem_cons]
  exact ⟨congrArg some hreset.symm, congrArg some hvcheck.symm, congrArg some hocr.symm, by simp⟩

/-- Settles O5: the first byte by its bits, the four argument bytes as `frameOf` writes them, the CRC byte by the index alone. -/
theorem frameFieldsAndCrc : Obligations.FrameFieldsAndCrc := by
  refine ⟨fun c index a hc => ?_, fun c hd => crcByte_by_index hd, default_crc_is_crc7Field⟩
  obtain ⟨hbit7, hbit6, hindex⟩ := startByte_fields hc index
  exact ⟨hbit7, hbit6, hindex, rfl, rfl, rfl, rfl, rfl⟩

/-- Settles O1: each word is a closed term that the decoder evaluates. -/
theorem tableWordsDecode : Obligations.TableWordsDecode := by
  unfold Obligations.TableWordsDecode
  and_intros <;> decide

end Sys2Proof.Machine
end

section
/-! PROOFS. The exchange of IDLE_BYTE, wherever it is sent: the step answers, and what the received byte leaves unchanged (O13). -/

namespace Sys2Proof.Machine

/-- The part of `s` that no received byte writes: the configuration, the operands of START, the ports, the frame, the timers' own
count, and what the other agents have yet to do. Every other field stands at its reset value. -/
def byteFrame (s : State) : State :=
  { State.reset with
    cfg := s.cfg, op := s.op, sector := s.sector, count := s.count, cs := s.cs, clkTier := s.clkTier, frame := s.frame,
    ms := s.ms, host := s.host, card := s.card, sched := s.sched }

theorem byteFrame_eq_iff {s t : State} : byteFrame t = byteFrame s ↔
    t.cfg = s.cfg ∧ t.clkTier = s.clkTier ∧ t.cs = s.cs ∧ t.op = s.op ∧ t.sector = s.sector ∧ t.count = s.count
      ∧ t.frame = s.frame ∧ t.ms = s.ms ∧ t.host = s.host ∧ t.card = s.card ∧ t.sched = s.sched := by
  simp [byteFrame]

/-! ## What a received byte leaves unchanged -/

@[simp] theorem powerOnByte_byteFrame (sent : Nat) (s : State) : byteFrame (powerOnByte sent s) = byteFrame s := by
  unfold powerOnByte
  split <;> rfl

@[simp] theorem pollByte_byteFrame (c : Cmd) (b : Byte) (s : State) : byteFrame (pollByte c b s) = byteFrame s := by
  unfold pollByte
  dsimp only
  split
  · rw [(afterPoll_frame c _).1]; rfl
  · rfl

@[simp] theorem lastTrailingByte_byteFrame (c : Cmd) (t0 t1 t2 t3 : Byte) (s : State) :
    byteFrame (lastTrailingByte c t0 t1 t2 t3 s) = byteFrame s := rfl

@[simp] theorem tokenByte_byteFrame (b : Byte) (s : State) : byteFrame (tokenByte b s) = byteFrame s := by
  unfold tokenByte
  split
  · split <;> rfl
  · rfl
  · split <;> rfl

theorem csdByte_byteFrame (b : Byte) (s : State) : byteFrame (csdByte b s) = byteFrame s := by
  unfold csdByte
  dsimp only
  split <;> rfl

theorem afterDataByte_byteFrame (s : State) : byteFrame (afterDataByte s) = byteFrame s := by
  unfold afterDataByte
  split <;> rfl

theorem dataByte_byteFrame {b : Byte} {s t : State} (h : dataByte b s = .next t) : byteFrame t = byteFrame s := by
  unfold dataByte at h
  split at h
  · cases h
    exact csdByte_byteFrame b s
  · cases (withinBuffer_next h).2
    exact afterDataByte_byteFrame _

@[simp] theorem crcByteReceived_byteFrame (second : Bool) (s : State) :
    byteFrame (crcByteReceived second s) = byteFrame s := by
  unfold crcByteReceived
  split <;> rfl

@[simp] theorem afterStub_byteFrame (second : Bool) (s : State) : byteFrame (afterStub second s) = byteFrame s := by
  unfold afterStub
  split <;> rfl

@[simp] theorem drespByte_byteFrame (b : Byte) (s : State) : byteFrame (drespByte b s) = byteFrame s := by
  unfold drespByte
  dsimp only
  split <;> rfl

@[simp] theorem busyByte_byteFrame (b : Byte) (s : State) : byteFrame (busyByte b s) = byteFrame s := by
  unfold busyByte
  split
  · rfl
  · split <;> rfl

@[simp] theorem afterRelease_byteFrame (a : After) (s : State) : byteFrame (afterRelease a s) = byteFrame s := by
  rw [afterRelease_frame]; rfl

theorem idleExchanged_byteFrame {b : Byte} {s t : State} (h : idleExchanged b s = .next t) : byteFrame t = byteFrame s := by
  cases hp : s.pos <;> simp only [idleExchanged, hp, Host.Outcome.next.injEq, reduceCtorEq] at h
  case data => exact dataByte_byteFrame h
  case trail0 | trail1 | trail2 | leadDummy => subst h; rfl
  all_goals subst h; simp

/-- A byte received outside the data phase of a READ. -/
theorem idleExchanged_sameBytes {b : Byte} {s t : State} (hread : s.pos ≠ .data ∨ s.phase = .qscData)
    (h : idleExchanged b s = .next t) : sameBytes s t := by
  have hbuf : hostBuffers t = hostBuffers s := by
    by_cases hp : s.pos = .data
    · have hq : s.phase = .qscData := hread.resolve_left (not_not_intro hp)
      simp only [idleExchanged, hp, dataByte, if_pos hq] at h
      cases h
      exact csdByte_buffers b s
    · exact idleExchanged_buffers hp h
  have hhost : t.hostbuf = s.hostbuf := congrArg Prod.fst hbuf
  exact fun off => congrArg (Memory.read · off) hhost

/-! ## The exchange answers -/

/-- The one partial case is a data byte of a READ, which answers inside the buffer (20 R52). -/
theorem idleExchanged_answers {s : State} (hx : sendsIdle s.pos = true)
    (hin : s.pos = .data → s.phase ≠ .qscData → bufOffset s.cfg s.blk s.idx < bufSize s.cfg s.count) (b : Byte) :
    ∃ t, idleExchanged b s = .next t := by
  cases hp : s.pos <;> simp only [hp, sendsIdle, Bool.false_eq_true] at hx <;> simp only [idleExchanged, hp]
  case data =>
    by_cases hq : s.phase = .qscData
    · exact ⟨_, if_pos hq⟩
    · exact ⟨_, (if_neg hq).trans (withinBuffer_inside (hin hp hq))⟩
  all_goals exact ⟨_, rfl⟩

/-- Settles O13: with an answer the step is the exchange and what the position does with the byte, which answers next and writes
nothing of `byteFrame`; without one it waits. -/
theorem idleByteCompletesEverywhere : Obligations.IdleByteCompletesEverywhere := by
  intro s hc hx hin
  refine ⟨fun i rest hcard => ?_, exec_idleByte_wait hx⟩
  obtain ⟨hlen, -⟩ := Config.ok_facts hc
  have hoff : s.pos = .data → s.phase ≠ .qscData → bufOffset s.cfg s.blk s.idx < bufSize s.cfg s.count := fun hp hq =>
    have ⟨hblk, hidx⟩ := hin hp hq
    bufOffset_lt hlen hblk hidx
  obtain ⟨t, ht⟩ := idleExchanged_answers (s := exchanged s.cfg.idleByte i s) hx hoff i
  obtain ⟨hcfg, hclk, hcs, hop, hsector, hcount, hfr, hms, hhost, hrest, hsched⟩ :=
    byteFrame_eq_iff.1 (idleExchanged_byteFrame ht)
  have hbytes : s.pos ≠ .data ∨ s.phase = .qscData → sameBytes s t := fun hread =>
    idleExchanged_sameBytes (s := exchanged s.cfg.idleByte i s) hread ht
  exact ⟨t, (exec_idleByte_byte hx hcard).trans ht, idleExchanged_trace ht, hrest.trans (congrArg List.tail hcard), hcs, hclk,
    hop, hsector, hcount, hcfg, hfr, hms, hhost, hsched, hbytes⟩

end Sys2Proof.Machine
end

section
/-! PROOFS. A command on the bus: CS(1) and the latched frame, its six bytes, and the R1 poll (O6 to O10). -/

namespace Sys2Proof.Machine

/-! ## The frame -/

/-- A frame with its fields written out (30 R70). -/
theorem frameOf_eq {c : Config} (hc : c.ok = true) (index : BitVec 6) (a : Word) :
    frameOf c index a = #v[0x40 ||| index.setWidth 8, a.extractLsb' 24 8, a.extractLsb' 16 8, a.extractLsb' 8 8,
      a.extractLsb' 0 8, crcByte c index] := by
  rw [frameOf, startByte_eq hc]
  rfl

/-- `s` after the CS(1) of command `c` with argument `a` (41 R120). -/
def selected (c : Cmd) (a : Word) (s : State) : State :=
  { driveCs .asserted { s with arg := a } with frame := frameOf s.cfg (c.index s.cfg) a, pos := .frame c 0 }

@[simp] theorem turned_cfg (s : State) : (turned s).cfg = s.cfg := rfl
@[simp] theorem turned_sched (s : State) : (turned s).sched = s.sched.drop 1 := rfl
@[simp] theorem selected_cfg (c : Cmd) (a : Word) (s : State) : (selected c a s).cfg = s.cfg := rfl
@[simp] theorem selected_sched (c : Cmd) (a : Word) (s : State) : (selected c a s).sched = s.sched := rfl

/-- Settles O6: every command row latches the same way, and the frame is written out field by field. -/
theorem commandRowsLatchTheFrame : Obligations.CommandRowsLatchTheFrame := by
  intro c a s hc hp
  exact ⟨selected c (c.argument s.cfg a) s, exec_command a hp, rfl, rfl, frameOf_eq hc _ _, rfl, fun _ => rfl, rfl⟩

theorem step_issue {s : State} {c : Cmd} (hn : noTick 1 s) (hc : s.cfg.ok = true) (hp : s.pos = .issue c)
    (harg : s.arg = c.argument s.cfg s.arg) : step s = .next (selected c s.arg (turned s)) := by
  rw [step_turned hn hc, blockStep_issue (s := turned s) hp, exec_command (s := turned s) _ hp]
  exact congrArg (fun a => Host.Outcome.next (selected c a (turned s))) harg.symm

section
variable {s : State} {c : Cmd} {k : Fin 6} {i : Byte} {rest : List Answer} (hn : noTick 1 s) (hc : s.cfg.ok = true)
  (hp : s.pos = .frame c k) (hcard : s.card = .byte i :: rest)
include hn hc hp hcard

theorem step_frame : step s = .next (afterFrameByte c k (stepX s.frame[k] i rest s)) := by
  rw [step_turned hn hc, blockStep_frame (s := turned s) hp, sendFrameByte, exchange_byte (s := turned s) hcard,
    exchanged_turned hcard]
  rfl

theorem step_frame_more (hk : k.val + 1 < 6) :
    step s = .next (moveTo (.frame c ⟨k.val + 1, hk⟩) (stepX s.frame[k] i rest s)) := by
  rw [step_frame hn hc hp hcard, afterFrameByte, dif_pos hk]
  rfl

theorem step_frame_last (hk : ¬ k.val + 1 < 6) :
    step s = .next { stepX s.frame[k] i rest s with pollCnt := s.cfg.r1PollBudget, pos := .poll c } := by
  rw [step_frame hn hc hp hcard, afterFrameByte, dif_neg hk]
  rfl

end

/-- The frame bytes from byte `k` on, whatever comes back, and the poll with its full budget after the last. -/
theorem run_frame {is : List Byte} {s : State} {c : Cmd} {k : Fin 6} {rest : List Answer} (hc : s.cfg.ok = true)
    (hp : s.pos = .frame c k) (hleft : k.val + is.length = 6) (hn : noTick is.length s) (hcard : answering is rest s) :
    run is.length s = .next { s with
      pollCnt := s.cfg.r1PollBudget, pos := .poll c, card := rest, sched := s.sched.drop is.length,
      trace := (exchanges (s.frame.toList.drop k.val) is).reverse ++ s.trace } := by
  induction is generalizing k s with
  | nil => exact absurd hleft k.isLt.ne
  | cons i is ih =>
    rw [List.length_cons] at hleft
    have hbyte : s.frame.toList.drop k.val = s.frame[k] :: s.frame.toList.drop (k.val + 1) := by
      rw [List.drop_eq_getElem_cons (by simp)]
      simp
    rcases Nat.lt_or_ge (k.val + 1) 6 with hmore | hlast
    · refine run_turn hn hc (step_frame_more · · hp hcard hmore) fun hn hc => ?_
      rw [ih hc rfl (by simp only; omega) hn rfl, hbyte]
      simp [moveTo, stepX, afterX, turned, exchanges, Nat.add_comm]
    · obtain rfl : is = [] := List.length_eq_zero_iff.1 (by omega)
      refine run_turn hn hc (step_frame_last · · hp hcard (by omega)) fun _ _ => ?_
      rw [hbyte]
      simp [run_zero, stepX, afterX, turned, exchanges]

/-- Settles O7: the step of CS(1), then the bytes of the frame it latched. -/
theorem commandSendsItsFrame : Obligations.CommandSendsItsFrame := by
  refine ⟨fun c s i0 i1 i2 i3 i4 i5 rest hc hn hp harg hcard => ?_, fun c k s i rest hc hn hp hcard =>
    step_frame hn hc hp hcard⟩
  have hframe := frameOf_eq hc (c.index s.cfg) s.arg
  refine run_turn hn hc (step_issue · · hp harg) fun hn hc => ?_
  refine (run_frame (is := [i0, i1, i2, i3, i4, i5]) hc rfl rfl hn hcard).trans ?_
  simp [selected, turned, driveCs, emit, exchanges, hframe]

/-! ## One byte of the R1 poll -/

/-- `s` after the poll's byte `b`, latched and counted (41 R120, R122). -/
def latched (b : Byte) (s : State) : State := { s with r1 := b, pollCnt := s.pollCnt - 1 }

theorem r1Valid_iff {c : Config} (hc : c.ok = true) (b : Byte) : r1Valid c b = true ↔ b.getLsbD 7 = false := by
  obtain ⟨-, -, -, hmask, -⟩ := Config.ok_facts hc
  rw [r1Valid, hmask]
  revert b
  decide

theorem r1Ok_iff {c : Config} (hc : c.ok = true) (b : Byte) : r1Ok c b = true ↔ b = 0x00 := by
  obtain ⟨-, -, -, -, -, hzero⟩ := Config.ok_facts hc
  rw [r1Ok, hzero, beq_iff_eq]

theorem r1NoError_iff (b : Byte) : r1NoError b = true ↔ b = 0x00 ∨ b = 0x01 := by
  revert b
  decide

section
variable {s : State} {b : Byte} (hc : s.cfg.ok = true) (c : Cmd)
include hc

theorem pollByte_more (hb : b.getLsbD 7 = true) (hleft : s.pollCnt ≠ 1) : pollByte c b s = latched b s := by
  have hcount : s.pollCnt - 1 ≠ 0 := by bv_omega
  have hmore : ¬ (r1Valid s.cfg b || s.pollCnt - 1 == 0) = true := by
    rw [Bool.or_eq_true, r1Valid_iff hc, beq_iff_eq, hb]
    exact not_or.2 ⟨Bool.noConfusion, hcount⟩
  exact if_neg hmore

theorem pollByte_last (hend : b.getLsbD 7 = false ∨ s.pollCnt = 1) : pollByte c b s = afterPoll c (latched b s) := by
  have hstop : (r1Valid s.cfg b || s.pollCnt - 1 == 0) = true := by
    rw [Bool.or_eq_true, r1Valid_iff hc]
    exact hend.imp_right fun h => by rw [h]; rfl
  exact if_pos hstop

end

theorem pollReceives_poll {s : State} {c : Cmd} {b : Byte} {rest : List Answer} (hp : s.pos = .poll c)
    (hcard : s.card = .byte b :: rest) : pollReceives b s = .next (pollByte c b (afterX s.cfg.idleByte b rest s)) := by
  simp [pollReceives, hp, received, exchanged, emit, hcard, afterX]

/-- The poll's end on a byte that no caller accepts. -/
theorem afterPoll_notReady {s : State} (hc : s.cfg.ok = true) (c : Cmd) (hb : s.r1.getLsbD 7 = true) :
    afterPoll c s =
      deselect (if c = .cmd17 ∨ c = .cmd24 ∨ c = .cmd9 then .raise .commandRejected else .done c) s := by
  have hzero : s.r1 ≠ 0x00 := fun h => by simp [h] at hb
  have hone : s.r1 ≠ 0x01 := fun h => by simp [h] at hb
  have hok : ¬ r1Ok s.cfg s.r1 = true := mt (r1Ok_iff hc _).1 hzero
  have herr : ¬ r1NoError s.r1 = true := mt (r1NoError_iff _).1 (not_or.2 ⟨hzero, hone⟩)
  cases c <;> simp [afterPoll, hok, herr]

/-- The budget's last byte, and no R1. -/
theorem pollByte_exhausted {s : State} {b : Byte} (hc : s.cfg.ok = true) (c : Cmd) (hb : b.getLsbD 7 = true)
    (hlast : s.pollCnt = 1) : pollByte c b s = { s with
      r1 := b, pollCnt := 0,
      pos := .deselect (if c = .cmd17 ∨ c = .cmd24 ∨ c = .cmd9 then .raise .commandRejected else .done c) } := by
  rw [pollByte_last hc c (.inr hlast), afterPoll_notReady (s := latched b s) hc c hb]
  simp [deselect, latched, hlast]

/-- Settles O8: the byte is no R1, so it is latched and counted, and at the end of the budget it is what no caller accepts. -/
theorem notReadyByteIsCounted : Obligations.NotReadyByteIsCounted := by
  intro c b rest s hc hp hb hcard
  have hexec : exec (.r1NotReady b) s = _ := pollReceives_poll hp hcard
  exact ⟨fun hleft => hexec.trans (congrArg _ (pollByte_more (s := afterX ..) hc c hb hleft)),
    fun hlast => hexec.trans (congrArg _ (pollByte_exhausted (s := afterX ..) hc c hb hlast))⟩

/-- Settles O9: the byte ends the poll whatever the count, and each caller's test of it is an equation. -/
theorem validByteEndsThePoll : Obligations.ValidByteEndsThePoll := by
  intro c b rest s hc hp hb hcard u
  have hexec : exec (.r1Valid b) s = _ := pollReceives_poll hp hcard
  rw [hexec, pollByte_last (s := afterX s.cfg.idleByte b rest s) hc c (.inl hb)]
  have hok : r1Ok u.cfg u.r1 = true ↔ b = 0x00 := r1Ok_iff hc b
  have hnoError : r1NoError u.r1 = true ↔ b = 0x00 ∨ b = 0x01 := r1NoError_iff b
  show Host.Outcome.next (afterPoll c u) = _
  cases c <;> simp only [afterPoll, hok, hnoError] <;> rfl

/-! ## The whole poll -/

section
variable {s : State} {c : Cmd} {b : Byte} {rest : List Answer} (hn : noTick 1 s) (hc : s.cfg.ok = true)
  (hp : s.pos = .poll c) (hcard : s.card = .byte b :: rest)
include hn hc hp hcard

theorem step_poll : step s = .next (pollByte c b (stepX s.cfg.idleByte b rest s)) := by
  rw [step_idleByte hn hc (by simp [hp, sendsIdle]) hcard]
  simp [idleExchanged, hp]

theorem step_poll_more (hb : b.getLsbD 7 = true) (hleft : s.pollCnt ≠ 1) :
    step s = .next (latched b (stepX s.cfg.idleByte b rest s)) := by
  rw [step_poll hn hc hp hcard, pollByte_more (s := stepX ..) hc c hb hleft]

theorem step_poll_last (hend : b.getLsbD 7 = false ∨ s.pollCnt = 1) :
    step s = .next (afterPoll c (latched b (stepX s.cfg.idleByte b rest s))) := by
  rw [step_poll hn hc hp hcard, pollByte_last (s := stepX ..) hc c hend]

end

/-- `s` after poll reads of the bytes `bs` that did not end the poll. -/
def pollRead (bs : List Byte) (rest : List Answer) (s : State) : State :=
  { s with
    r1 := bs.getLastD s.r1, pollCnt := s.pollCnt - BitVec.ofNat 8 bs.length, card := rest,
    sched := s.sched.drop bs.length, trace := receiving s.cfg.idleByte bs ++ s.trace }

theorem pollRead_nil (s : State) : pollRead [] s.card s = s := by
  simp [pollRead, receiving]

theorem pollRead_concat (bs : List Byte) (b : Byte) (more rest : List Answer) (s : State) :
    pollRead (bs ++ [b]) rest s = latched b (stepX s.cfg.idleByte b rest (pollRead bs more s)) := by
  have hcount : s.pollCnt - BitVec.ofNat 8 (bs.length + 1) = s.pollCnt - BitVec.ofNat 8 bs.length - 1 := by bv_omega
  simp only [pollRead, latched, stepX, afterX, turned, List.length_append, List.length_singleton, hcount]
  simp [receiving]

theorem pollRead_pollCnt {bs : List Byte} {s : State} (h : bs.length ≤ s.pollCnt.toNat) (rest : List Answer) :
    (pollRead bs rest s).pollCnt.toNat + bs.length = s.pollCnt.toNat := by
  simp only [pollRead]
  bv_omega

theorem answering_append {as bs : List Byte} {rest : List Answer} {s : State} :
    answering (as ++ bs) rest s ↔ answering as (bs.map .byte ++ rest) s := by
  rw [answering, List.map_append, List.append_assoc]

theorem noTick_mono {s : State} {j k : Nat} (h : noTick k s) (hjk : j ≤ k) : noTick j s :=
  fun m hm => h m (List.take_subset_take_left _ hjk hm)

theorem noTick_drop {s t : State} {j k : Nat} (h : noTick (j + k) s) (ht : t.sched = s.sched.drop j) : noTick k t := by
  intro m hm
  rw [ht, List.take_drop] at hm
  exact h m (List.mem_of_mem_drop hm)

section
variable {s : State} {c : Cmd} {bs : List Byte} {b : Byte} {rest : List Answer} (hc : s.cfg.ok = true) (hp : s.pos = .poll c)
include hc hp

/-- Bytes with bit 7 set, fewer than the budget has left, do not end the poll. -/
theorem run_poll (hn : noTick bs.length s) (hcard : answering bs rest s) (hbs : ∀ x ∈ bs, x.getLsbD 7 = true)
    (hleft : bs.length < s.pollCnt.toNat) : run bs.length s = .next (pollRead bs rest s) := by
  induction bs using List.reverseRecOn generalizing rest with
  | nil =>
    obtain rfl : s.card = rest := hcard
    rw [pollRead_nil]
    rfl
  | append_singleton bs b ih =>
    obtain ⟨hbs, hb⟩ := List.forall_mem_append.1 hbs
    rw [List.length_append, List.length_singleton] at hn hleft ⊢
    have hrun := ih (noTick_mono hn (Nat.le_succ _)) (answering_append.1 hcard) hbs (by omega)
    have hcount := pollRead_pollCnt (bs := bs) (Nat.le_of_lt (Nat.lt_of_succ_lt hleft)) (.byte b :: rest)
    have hmore : (pollRead bs (.byte b :: rest) s).pollCnt ≠ 1 := by bv_omega
    rw [run_add hrun, pollRead_concat bs b (.byte b :: rest)]
    exact run_one (step_poll_more (noTick_drop hn rfl) hc hp rfl (hb b (by simp)) hmore)

/-- The read that ends the poll: a byte with bit 7 clear, or the last of the budget. -/
theorem run_poll_end (hn : noTick (bs.length + 1) s) (hcard : answering (bs ++ [b]) rest s)
    (hbs : ∀ x ∈ bs, x.getLsbD 7 = true) (hle : bs.length + 1 ≤ s.pollCnt.toNat)
    (hend : b.getLsbD 7 = false ∨ bs.length + 1 = s.pollCnt.toNat) :
    run (bs.length + 1) s = .next (afterPoll c (pollRead (bs ++ [b]) rest s)) := by
  have hrun := run_poll hc hp (noTick_mono hn (Nat.le_succ _)) (answering_append.1 hcard) hbs hle
  have hcount := pollRead_pollCnt (Nat.le_of_lt hle) (.byte b :: rest)
  have hlast : b.getLsbD 7 = false ∨ (pollRead bs (.byte b :: rest) s).pollCnt = 1 :=
    hend.imp_right fun h => by bv_omega
  rw [run_add hrun, pollRead_concat bs b (.byte b :: rest)]
  exact run_one (step_poll_last (noTick_drop hn rfl) hc hp rfl hlast)

end

/-- Settles O10: no first part of `bs` ends the poll, and the byte `b` after all of it does. -/
theorem pollReadsUpToTheBudget : Obligations.PollReadsUpToTheBudget := by
  refine ⟨fun c s bs b rest hc hn hp hbudget hcard hbs hle hend => ?poll, fun c s t hp htick hstep => ?tick⟩
  case poll =>
    rw [← hbudget] at hle hend ⊢
    refine ⟨fun k hk => ?_, ?_⟩
    · have hfirst : answering (bs.take k) ((bs.drop k).map .byte ++ ([b].map .byte ++ rest)) s :=
        answering_append.1 (by rw [List.take_append_drop]; exact answering_append.1 hcard)
      have hlen : (bs.take k).length = k := List.length_take_of_le hk
      have hrun := run_poll hc hp (by rw [hlen]; exact noTick_mono hn (by omega)) hfirst
        (fun x hx => hbs x (List.mem_of_mem_take hx)) (by omega)
      rw [hlen] at hrun
      exact ⟨_, hrun, hp, rfl⟩
    · obtain ⟨hframe, hpoll⟩ := afterPoll_frame c (pollRead (bs ++ [b]) rest s)
      have hcount := pollRead_pollCnt (bs := bs ++ [b]) (s := s) (by simpa using hle) rest
      refine ⟨_, run_poll_end hc hp hn hcard hbs hle hend, hpoll, ?_⟩
      rw [hframe]
      exact ⟨List.getLastD_concat .., rfl, rfl, rfl, by simpa using hcount⟩
  case tick =>
    obtain ⟨hc, -⟩ := step_cases hstep
    rw [step_tick hc htick] at hstep
    cases hstep
    exact ⟨rfl, rfl, rfl, rfl⟩

end Sys2Proof.Machine
end

section
/-! PROOFS. The initialization state machine: what each of its tails does on each answer, and the two steps that end it (O27, O30 to
O37). -/

namespace Sys2Proof.Machine

/-! ## What the tails read and call -/

theorem r1Idle_iff {c : Config} (hc : c.ok = true) (b : Byte) : r1Idle c b = true ↔ b = 0x01 := by
  obtain ⟨-, -, -, -, hone, -⟩ := Config.ok_facts hc
  rw [r1Idle, hone, beq_iff_eq]

theorem r1Illegal_iff (b : Byte) : r1Illegal b = true ↔ b.getLsbD 7 = false ∧ b.getLsbD 2 = true := by
  revert b
  decide

theorem patternEchoed_iff (c : Config) (t : Word) :
    patternEchoed c t = true ↔ t &&& c.vcheckMask = c.vcheckArg &&& c.vcheckMask := beq_iff_eq

theorem expired_iff (s : State) : expired s = true ↔ s.cnt = 0 := beq_iff_eq

theorem issueConst_eq (c : Cmd) (s : State) : issueConst c s = calling c (c.argument s.cfg 0) s := rfl

/-- A byte-addressed card is sent its block length, 512 (42 R151). -/
theorem beginForceBlockLength_byteAddressed {s : State} (hc : s.cfg.ok = true)
    (hv : s.version = .v1 ∨ s.version = .v2Byte ∨ s.version = .mmcV3) :
    beginForceBlockLength s = calling .cmd16 512 { s with phase := .initForceBlockLength } := by
  obtain ⟨hlen, -⟩ := Config.ok_facts hc
  obtain hv | hv | hv := hv <;> simp [beginForceBlockLength, hv, issueConst_eq, Cmd.argument, hlen]

/-- The step of a release byte: the exchange, and what its span's caller does next. -/
theorem exec_released {s : State} {a : After} {i : Byte} {rest : List Answer} (hp : s.pos = .release a)
    (hcard : s.card = .byte i :: rest) :
    exec .idleByte s = .next (afterRelease a (afterX s.cfg.idleByte i rest s)) := by
  rw [exec_idleByte_byte (by simp [hp, sendsIdle]) hcard]
  simp [idleExchanged, hp, exchanged, emit, afterX, hcard]

/-! ## INIT and the reset command -/

/-- Settles O27: the START of INIT has no admission test. -/
theorem initIsAlwaysAdmitted : Obligations.InitIsAlwaysAdmitted :=
  fun _ _ _ hp => startOp_idle hp

/-- Settles O30: the only test is R1 against 0x01. -/
theorem resetMustAnswerIdle : Obligations.ResetMustAnswerIdle := by
  intro s i rest hc hp hop hcard
  rw [exec_released hp hcard]
  refine ⟨fun h => congrArg _ ?idle, fun h => congrArg _ ?other⟩
  case idle => exact if_pos ((r1Idle_iff hc _).2 h)
  case other => exact (if_neg (mt (r1Idle_iff hc _).1 h)).trans (raiseFail_init hop)

/-! ## The voltage check -/

section
variable {s : State}

theorem afterVoltageCheck_noVersion2 (hzero : s.r1 ≠ 0x00) (hone : s.r1 ≠ 0x01) :
    afterVoltageCheck s = beginLegacyProbe s :=
  if_neg (mt (r1NoError_iff _).1 (not_or.2 ⟨hzero, hone⟩))

variable (hr : s.r1 = 0x00 ∨ s.r1 = 0x01)
include hr

theorem afterVoltageCheck_echo (he : s.trailing &&& s.cfg.vcheckMask = s.cfg.vcheckArg &&& s.cfg.vcheckMask) :
    afterVoltageCheck s = beginSdv2Wait s :=
  (if_pos ((r1NoError_iff _).2 hr)).trans (if_pos ((patternEchoed_iff _ _).2 he))

variable (he : s.trailing &&& s.cfg.vcheckMask ≠ s.cfg.vcheckArg &&& s.cfg.vcheckMask)
include he

theorem afterVoltageCheck_mismatch_fail (hpol : s.cfg.pVcheckMismatch = .fail) :
    afterVoltageCheck s = raiseFail .noInit s := by
  rw [afterVoltageCheck, if_pos ((r1NoError_iff _).2 hr), if_neg (mt (patternEchoed_iff _ _).1 he), hpol]

theorem afterVoltageCheck_mismatch_degrade (hpol : s.cfg.pVcheckMismatch = .degrade) :
    afterVoltageCheck s = beginSdv2Wait { s with degraded := true } := by
  rw [afterVoltageCheck, if_pos ((r1NoError_iff _).2 hr), if_neg (mt (patternEchoed_iff _ _).1 he), hpol]

end

/-- Settles O31: the tests in the order of R1, the echo and the policy. -/
theorem voltageCheckChoosesThePath : Obligations.VoltageCheckChoosesThePath := by
  intro s i rest hc hp hop hcard u
  rw [exec_released hp hcard]
  refine ⟨fun hzero hone => congrArg _ ?legacy, fun hr he => congrArg _ ?sdv2, fun hr he =>
    ⟨fun hpol => congrArg _ ?fail, fun hpol => congrArg _ ?degrade⟩⟩
  case legacy => exact afterVoltageCheck_noVersion2 hzero hone
  case sdv2 => exact afterVoltageCheck_echo hr he
  case fail => exact Eq.trans (afterVoltageCheck_mismatch_fail hr he hpol) (raiseFail_init hop)
  case degrade => exact afterVoltageCheck_mismatch_degrade hr he hpol

/-! ## The marker -/

section
variable {s : State}

theorem afterMarker_sdv2 (hph : s.phase = .initSdv2Wait) : afterMarker s = calling .acmd41Hcs s.cfg.hcsArg s :=
  if_pos hph

theorem afterMarker_probe (hph : s.phase = .initLegacyProbe) :
    afterMarker s = calling .acmd41Legacy 0 { s with r55 := s.r1 } :=
  (if_neg (by simp [hph])).trans (if_pos hph)

theorem afterMarker_legacyWait (hph : s.phase = .initLegacyWait) : afterMarker s = calling .acmd41Legacy 0 s :=
  (if_neg (by simp [hph])).trans (if_neg (by simp [hph]))

end

/-- Settles O32: the phase alone decides. -/
theorem markerIsFollowedByOpCond : Obligations.MarkerIsFollowedByOpCond := by
  intro s i rest hp hcard
  rw [exec_released hp hcard]
  exact ⟨fun hph => congrArg _ (afterMarker_sdv2 hph), fun hph => congrArg _ (afterMarker_probe hph),
    fun hph => congrArg _ (afterMarker_legacyWait hph)⟩

/-! ## The operating-condition waits -/

/-- One turn of a wait that is left for `leave` and begins its next turn with command `c`: success first, then the countdown (42 R146,
R149, R150). -/
def waitTurn (leave : State) (c : Cmd) (s : State) : State :=
  if r1Ok s.cfg s.r1 then leave else if expired s then raiseFail .timeout s else issueConst c s

theorem afterSdv2OpCond_eq (s : State) :
    afterSdv2OpCond s = waitTurn (calling .cmd58 0 { s with phase := .initOcrRead }) .cmd55 s := rfl

section
variable {s : State} (hc : s.cfg.ok = true)
include hc

theorem legacySdTest_eq : legacySdTest s =
    waitTurn (calling .cmd16 512 { s with version := .v1, phase := .initForceBlockLength }) .cmd55 s :=
  congrArg (waitTurn · .cmd55 s) (beginForceBlockLength_byteAddressed hc (.inl rfl))

theorem afterLegacyInitiate_eq : afterLegacyInitiate s =
    waitTurn (calling .cmd16 512 { s with version := .mmcV3, phase := .initForceBlockLength }) .cmd1 s :=
  congrArg (waitTurn · .cmd1 s) (beginForceBlockLength_byteAddressed hc (.inr (.inr rfl)))

/-- A step that makes one turn of a wait has one of three outcomes. -/
theorem waitTurn_outcomes {r : Result} {leave : State} {c : Cmd} (hop : s.op = .init) (hr : r = .next (waitTurn leave c s)) :
    (s.r1 = 0x00 → r = .next leave) ∧
    (s.r1 ≠ 0x00 → s.cnt = 0 → r = .next (initFailed .ioError .timeout s)) ∧
    (s.r1 ≠ 0x00 → s.cnt ≠ 0 → r = .next (calling c (c.argument s.cfg 0) s)) := by
  subst hr
  have hok := r1Ok_iff hc s.r1
  have hexp := expired_iff s
  refine ⟨fun h => congrArg _ ?ok, fun h hcnt => congrArg _ ?expired, fun h hcnt => congrArg _ ?again⟩
  case ok => exact if_pos (hok.2 h)
  case expired => exact (if_neg (mt hok.1 h)).trans ((if_pos (hexp.2 hcnt)).trans (raiseFail_init hop))
  case again => exact (if_neg (mt hok.1 h)).trans (if_neg (mt hexp.1 hcnt))

end

theorem afterLegacyOpCond_wait {s : State} (hph : s.phase = .initLegacyWait) : afterLegacyOpCond s = legacySdTest s :=
  if_neg (by simp [hph])

/-- Settles O33: each of the three waits makes the same turn, with its own way out and its own command. -/
theorem opCondWaitTurn : Obligations.OpCondWaitTurn := by
  intro s i rest hc hop hcard u
  refine ⟨fun hp => ?sdv2, fun hph hp => ?legacySd, fun _ hp => ?legacyMmc⟩
  case sdv2 => exact waitTurn_outcomes (s := u) hc hop (exec_released hp hcard)
  case legacySd =>
    have htail : afterLegacyOpCond u = _ := (afterLegacyOpCond_wait (s := u) hph).trans (legacySdTest_eq hc)
    exact waitTurn_outcomes (s := u) hc hop ((exec_released hp hcard).trans (congrArg _ htail))
  case legacyMmc =>
    have htail : afterLegacyInitiate u = _ := afterLegacyInitiate_eq (s := u) hc
    exact waitTurn_outcomes (s := u) hc hop ((exec_released hp hcard).trans (congrArg _ htail))

/-! ## The legacy probe -/

section
variable {s : State} (hph : s.phase = .initLegacyProbe)
include hph

theorem afterLegacyOpCond_illegal (hill : r1Illegal s.r55 = true ∨ r1Illegal s.r1 = true) :
    afterLegacyOpCond s = calling .cmd1 0 { s with path := .mmc, phase := .initLegacyWait } :=
  (if_pos hph).trans (if_pos (Bool.or_eq_true_iff.2 hill))

theorem afterLegacyOpCond_legal (hr55 : ¬ r1Illegal s.r55 = true) (hr1 : ¬ r1Illegal s.r1 = true) :
    afterLegacyOpCond s = legacySdTest { s with path := .sd1, phase := .initLegacyWait } :=
  (if_pos hph).trans (if_neg (mt Bool.or_eq_true_iff.1 (not_or.2 ⟨hr55, hr1⟩)))

end

/-- Settles O35: without an illegal command the probe's ACMD41 is the first turn of the SD wait. -/
theorem legacyProbeChoosesThePath : Obligations.LegacyProbeChoosesThePath := by
  intro s i rest hc hp hop hph hcard u illegal
  have hexec := exec_released hp hcard
  refine ⟨fun hill => hexec.trans (congrArg _ ?mmc), fun hr55 hr1 => ?sd1⟩
  case mmc => exact afterLegacyOpCond_illegal hph (hill.imp (r1Illegal_iff _).2 (r1Illegal_iff _).2)
  case sd1 =>
    have htail : afterLegacyOpCond (afterX s.cfg.idleByte i rest s) = legacySdTest { u with path := .sd1 } :=
      afterLegacyOpCond_legal hph (mt (r1Illegal_iff _).1 hr55) (mt (r1Illegal_iff _).1 hr1)
    exact waitTurn_outcomes (s := { u with path := .sd1 }) hc hop
      (hexec.trans (congrArg _ (htail.trans (legacySdTest_eq hc))))

/-! ## The OCR read and the block length -/

section
variable {s : State} (hc : s.cfg.ok = true)
include hc

theorem afterOcr_refused (hr : s.r1 ≠ 0x00) : afterOcr s = raiseFail .ocrReadFailed s :=
  if_neg (mt (r1Ok_iff hc _).1 hr)

theorem afterOcr_block (hr : s.r1 = 0x00) (hccs : highCapacity s.cfg s.trailing = true) :
    afterOcr s = beginSpeedUp { s with version := .v2Block } := by
  rw [afterOcr, if_pos ((r1Ok_iff hc _).2 hr), if_pos hccs]
  rfl

theorem afterOcr_byte (hr : s.r1 = 0x00) (hccs : highCapacity s.cfg s.trailing = false) :
    afterOcr s = calling .cmd16 512 { s with version := .v2Byte, phase := .initForceBlockLength } := by
  rw [afterOcr, if_pos ((r1Ok_iff hc _).2 hr), if_neg (by simp [hccs])]
  exact beginForceBlockLength_byteAddressed hc (.inr (.inl rfl))

theorem afterBlockLength_ok (hr : s.r1 = 0x00) : afterBlockLength s = beginSpeedUp s :=
  if_pos ((r1Ok_iff hc _).2 hr)

theorem afterBlockLength_refused_fail (hr : s.r1 ≠ 0x00) (hpol : s.cfg.pBlocklenFail = .fail) :
    afterBlockLength s = raiseFail .noInit s := by
  rw [afterBlockLength, if_neg (mt (r1Ok_iff hc _).1 hr), hpol]

theorem afterBlockLength_refused_degrade (hr : s.r1 ≠ 0x00) (hpol : s.cfg.pBlocklenFail = .degrade) :
    afterBlockLength s = beginSpeedUp { s with degraded := true } := by
  rw [afterBlockLength, if_neg (mt (r1Ok_iff hc _).1 hr), hpol]

end

/-- Settles O34: R1 first, then the high-capacity bit. -/
theorem ocrClassifiesTheCard : Obligations.OcrClassifiesTheCard := by
  intro s i rest hc hp hop hcard
  rw [exec_released hp hcard]
  refine ⟨fun hr => congrArg _ ?failed, fun hr hccs => congrArg _ ?block, fun hr hccs => congrArg _ ?byte⟩
  case failed => exact Eq.trans (afterOcr_refused hc hr) (raiseFail_init hop)
  case block => exact afterOcr_block hc hr hccs
  case byte => exact afterOcr_byte hc hr hccs

/-- Settles O36: R1 first, then the policy. -/
theorem blockLengthOutcome : Obligations.BlockLengthOutcome := by
  intro s i rest hc hp hop hcard u
  rw [exec_released hp hcard]
  refine ⟨fun hr => congrArg _ ?ok, fun hr hpol => congrArg _ ?fail, fun hr hpol => congrArg _ ?degrade⟩
  case ok => exact afterBlockLength_ok hc hr
  case fail => exact Eq.trans (afterBlockLength_refused_fail hc hr hpol) (raiseFail_init hop)
  case degrade => exact afterBlockLength_refused_degrade hc hr hpol

/-! ## The speed-up and the end of Initialize -/

section
variable {s : State} (hn : noTick 1 s) (hc : s.cfg.ok = true)
include hn hc

theorem step_clkFast (hp : s.pos = .clkFast) : step s = .next (ended .ok .none { s with
    clkTier := .fast, version := if s.degraded then .unknown else s.version, ready := true, sched := s.sched.drop 1,
    trace := .clk .fast :: s.trace }) := by
  rw [step_turned hn hc, blockStep_clkFast (s := turned s) hp]
  rfl

theorem step_done (hp : s.pos = .done) : step s = .next (reported s) := by
  rw [step_turned hn hc, blockStep_done (s := turned s) hp]
  rfl

end

/-- Settles O37: the run is CLK(Fast) and DONE. -/
theorem speedUpMakesTheSessionReady : Obligations.SpeedUpMakesTheSessionReady := by
  refine ⟨fun s hc hn hp => ?_, fun s hc hn hp => step_clkFast hn hc hp⟩
  refine run_turn hn hc (step_clkFast · · hp) (fun hn hc => ?_) rfl rfl
  refine run_turn hn hc (step_done · · rfl) (fun _ _ => ?_) rfl rfl
  simp [run_zero, reported, ended]

end Sys2Proof.Machine
end

section
/-! PROOFS. One byte of a block span that is no data: the start token, the token wait, the data response and the busy-wait (O17, O18,
O21, O22). -/

namespace Sys2Proof.Machine

theorem exchanged_eq_afterX {s : State} {o i : Byte} {rest : List Answer} (hcard : s.card = .byte i :: rest) :
    exchanged o i s = afterX o i rest s := by
  simp [exchanged, emit, afterX, hcard]

/-- IDLE_BYTE with the answer `i`: the exchange, and what the position does with `i`. -/
theorem exec_idleByte_afterX {s : State} {i : Byte} {rest : List Answer} (hx : sendsIdle s.pos = true)
    (hcard : s.card = .byte i :: rest) : exec .idleByte s = idleExchanged i (afterX s.cfg.idleByte i rest s) := by
  rw [exec_idleByte_byte hx hcard, exchanged_eq_afterX hcard]

/-! ## The start token -/

/-- The token received: the data phase of the wait's own operation. -/
theorem tokenByte_start (s : State) : tokenByte s.cfg.tokenStart s = { s with
    phase := if s.phase = .qscTokenWait then .qscData else .rdData, idx := 0, pos := .data } := by
  have hclass : tokenClass s.cfg s.cfg.tokenStart = .start := if_pos rfl
  simp only [tokenByte, hclass]
  split <;> rfl

section
variable {s : State} {i : Byte} {rest : List Answer}

theorem exec_tokenStart_received (hp : s.pos = .tokenWait) (hcard : s.card = .byte s.cfg.tokenStart :: rest) :
    exec .tokenStart s = .next (tokenByte s.cfg.tokenStart (afterX s.cfg.idleByte s.cfg.tokenStart rest s)) := by
  simp [exec, execTokenStart, hp, received, exchanged_eq_afterX hcard]

theorem exec_tokenStart_sent (hp : s.pos = .leadToken) (hcard : s.card = .byte i :: rest) :
    exec .tokenStart s = .next (beginSendData (afterX s.cfg.tokenStart i rest s)) := by
  simp [exec, execTokenStart, hp, exchange_byte hcard, exchanged_eq_afterX hcard]

end

/-- Settles O17: no test of the countdown comes before the token's, and the phase of the wait decides which data follow. -/
theorem startTokenBeginsTheData : Obligations.StartTokenBeginsTheData := by
  intro s rest hc
  refine ⟨fun hp hph hcard => ?block, fun hp hph hcard => ?csd, fun hp i hcard => exec_tokenStart_sent hp hcard⟩
  all_goals rw [exec_tokenStart_received hp hcard]
  case block => exact congrArg _ ((tokenByte_start (afterX ..)).trans (by simp [afterX, hph]))
  case csd => exact congrArg _ ((tokenByte_start (afterX ..)).trans (by simp [afterX, hph]))

/-! ## The token wait -/

theorem exec_tokenWait {s : State} {b : Byte} {rest : List Answer} (hp : s.pos = .tokenWait) (hcard : s.card = .byte b :: rest) :
    exec .idleByte s = .next (tokenByte b (afterX s.cfg.idleByte b rest s)) := by
  rw [exec_idleByte_afterX (by simp [hp, sendsIdle]) hcard]
  simp [idleExchanged, afterX, hp]

section
variable {s : State} {b : Byte} (hb : b ≠ s.cfg.tokenStart)
include hb

theorem tokenByte_waits (hidle : b = 0xFF) (hcnt : s.cnt ≠ 0) : tokenByte b s = s := by
  have hclass : tokenClass s.cfg b = .idle := (if_neg hb).trans (if_pos hidle)
  simp only [tokenByte, hclass]
  exact if_neg (mt (expired_iff s).1 hcnt)

theorem tokenByte_fails (h : b ≠ 0xFF ∨ s.cnt = 0) : tokenByte b s = deselect (.raise .dataTokenError) s := by
  by_cases hidle : b = 0xFF
  · have hclass : tokenClass s.cfg b = .idle := (if_neg hb).trans (if_pos hidle)
    simp only [tokenByte, hclass]
    exact if_pos ((expired_iff s).2 (h.resolve_left (not_not_intro hidle)))
  · have hclass : tokenClass s.cfg b = .error := (if_neg hb).trans (if_neg hidle)
    simp only [tokenByte, hclass]

end

/-- Settles O18: the two tests after the token's, 0xFF and the countdown. -/
theorem tokenWaitOnOtherBytes : Obligations.TokenWaitOnOtherBytes := by
  intro s b rest hc hp hcard hb
  rw [exec_tokenWait hp hcard]
  exact ⟨fun hidle hcnt => congrArg _ (tokenByte_waits (s := afterX ..) hb hidle hcnt),
    fun h => congrArg _ (tokenByte_fails (s := afterX ..) hb h)⟩

/-! ## The data response -/

theorem drespClass_eq_accept {c : Config} {b : Byte} : drespClass c b = .accept ↔ b &&& c.drMask = c.drAccept := by
  refine ⟨fun h => ?_, fun h => if_pos h⟩
  by_contra hne
  rw [drespClass, if_neg hne] at h
  repeat' split at h
  all_goals cases h

section
variable {s : State} {b : Byte}

theorem drespByte_accept (h : b &&& s.cfg.drMask = s.cfg.drAccept) : drespByte b s = beginBusyWait { s with dresp := b } := by
  have hclass : drespClass s.cfg b = .accept := drespClass_eq_accept.2 h
  simp only [drespByte, hclass]

/-- Only one class of data response is accepted (30 R79). -/
theorem drespByte_rejected (h : b &&& s.cfg.drMask ≠ s.cfg.drAccept) :
    drespByte b s = deselect (.raise .writeRejected) { s with dresp := b } := by
  have hclass : drespClass s.cfg b ≠ .accept := mt drespClass_eq_accept.1 h
  simp only [drespByte]
  cases hcase : drespClass s.cfg b with
  | accept => exact absurd hcase hclass
  | crcError => rfl
  | writeError => rfl
  | other => rfl

variable {rest : List Answer} (hp : s.pos = .dresp) (hcard : s.card = .byte b :: rest)
include hp hcard

theorem drespReceives_dresp : drespReceives b s = .next (drespByte b (afterX s.cfg.idleByte b rest s)) := by
  simp [drespReceives, hp, received, exchanged_eq_afterX hcard]

theorem exec_idleByte_dresp : exec .idleByte s = .next (drespByte b (afterX s.cfg.idleByte b rest s)) := by
  rw [exec_idleByte_afterX (by simp [hp, sendsIdle]) hcard]
  simp [idleExchanged, afterX, hp]

end

/-- Settles O21: all four rows do the same with the byte, and the three patterns differ, so every class but the first is rejected. -/
theorem dataResponseDecides : Obligations.DataResponseDecides := by
  intro s b rest hc hp hcard u
  obtain ⟨hcrc, hwrite, -⟩ := Config.ok_responses hc
  have hrow : drespReceives b s = .next (drespByte b (afterX s.cfg.idleByte b rest s)) := drespReceives_dresp hp hcard
  have hreject (h : b &&& s.cfg.drMask ≠ s.cfg.drAccept) :
      drespByte b (afterX s.cfg.idleByte b rest s) = { u with pos := .deselect (.raise .writeRejected) } :=
    drespByte_rejected (s := afterX ..) h
  refine ⟨fun h => hrow.trans (congrArg _ ?accept), fun h => hrow.trans (congrArg _ (hreject ?crc)),
    fun h => hrow.trans (congrArg _ (hreject ?write)),
    fun h => (exec_idleByte_dresp hp hcard).trans (congrArg _ (hreject ?other))⟩
  case accept => exact drespByte_accept (s := afterX ..) h
  case crc => exact h ▸ hcrc.symm
  case write => exact h ▸ hwrite.symm
  case other => exact List.ne_of_not_mem_cons h

/-! ## The busy-wait -/

theorem exec_busyWait {s : State} {b : Byte} {rest : List Answer} (hp : s.pos = .busyWait) (hcard : s.card = .byte b :: rest) :
    exec .idleByte s = .next (busyByte b (afterX s.cfg.idleByte b rest s)) := by
  rw [exec_idleByte_afterX (by simp [hp, sendsIdle]) hcard]
  simp [idleExchanged, afterX, hp]

theorem lineReleased_iff (b : Byte) : lineReleased b = true ↔ b = 0xFF := beq_iff_eq

section
variable {s : State} {b : Byte}

theorem busyByte_released (hb : b = 0xFF) : busyByte b s = deselect (.done .cmd24) { s with blk := s.blk + 1 } :=
  if_pos ((lineReleased_iff b).2 hb)

variable (hb : b ≠ 0xFF)
include hb

theorem busyByte_waits (hcnt : s.cnt ≠ 0) : busyByte b s = s := by
  rw [busyByte, if_neg (mt (lineReleased_iff b).1 hb), if_neg (mt (expired_iff s).1 hcnt)]

theorem busyByte_fails (hcnt : s.cnt = 0) : busyByte b s = deselect (.raise .busyTimeout) s := by
  rw [busyByte, if_neg (mt (lineReleased_iff b).1 hb), if_pos ((expired_iff s).2 hcnt)]

end

/-- Settles O22: the released line first, then the countdown. -/
theorem busyWaitEndsOnAllOnes : Obligations.BusyWaitEndsOnAllOnes := by
  intro s b rest hc hp hcard
  rw [exec_busyWait hp hcard]
  exact ⟨fun hb => congrArg _ (busyByte_released (s := afterX ..) hb),
    fun hb hcnt => congrArg _ (busyByte_waits (s := afterX ..) hb hcnt),
    fun hb hcnt => congrArg _ (busyByte_fails (s := afterX ..) hb hcnt)⟩

end Sys2Proof.Machine
end

section
/-! PROOFS. The data of a block: one byte stored or sent, the 512 bytes of a block by induction on those that are left, and the addresses
of the blocks (O14, O20, O23, O24, O26). -/

namespace Sys2Proof.Machine

/-! ## A data byte and its index -/

/-- `s` with data byte `b` of a READ stored at its place (43 R174, 20 R51). -/
def stored (b : Byte) (s : State) : State :=
  { s with hostbuf := s.hostbuf.write (s.blk.toNat * 512 + s.idx.toNat) b }

/-- `s` with the index at the next byte of the block. -/
def nextIndex (s : State) : State := { s with idx := s.idx + 1 }

@[simp] theorem stored_cfg (b : Byte) (s : State) : (stored b s).cfg = s.cfg := rfl
@[simp] theorem stored_sched (b : Byte) (s : State) : (stored b s).sched = s.sched := rfl
@[simp] theorem nextIndex_cfg (s : State) : (nextIndex s).cfg = s.cfg := rfl
@[simp] theorem nextIndex_sched (s : State) : (nextIndex s).sched = s.sched := rfl
@[simp] theorem stored_idx (b : Byte) (s : State) : (stored b s).idx = s.idx := rfl
@[simp] theorem stored_pos (b : Byte) (s : State) : (stored b s).pos = s.pos := rfl
@[simp] theorem stored_phase (b : Byte) (s : State) : (stored b s).phase = s.phase := rfl
@[simp] theorem stored_blk (b : Byte) (s : State) : (stored b s).blk = s.blk := rfl
@[simp] theorem stored_count (b : Byte) (s : State) : (stored b s).count = s.count := rfl
@[simp] theorem nextIndex_pos (s : State) : (nextIndex s).pos = s.pos := rfl
@[simp] theorem nextIndex_phase (s : State) : (nextIndex s).phase = s.phase := rfl
@[simp] theorem nextIndex_blk (s : State) : (nextIndex s).blk = s.blk := rfl
@[simp] theorem nextIndex_count (s : State) : (nextIndex s).count = s.count := rfl
@[simp] theorem stepX_idx (o i : Byte) (rest : List Answer) (s : State) : (stepX o i rest s).idx = s.idx := rfl
@[simp] theorem stepX_phase (o i : Byte) (rest : List Answer) (s : State) : (stepX o i rest s).phase = s.phase := rfl
@[simp] theorem stepX_blk (o i : Byte) (rest : List Answer) (s : State) : (stepX o i rest s).blk = s.blk := rfl
@[simp] theorem stepX_count (o i : Byte) (rest : List Answer) (s : State) : (stepX o i rest s).count = s.count := rfl

theorem nextIndex_idx {s : State} {j : Nat} (hidx : s.idx.toNat = j) (hj : j < 511) : (nextIndex s).idx.toNat = j + 1 := by
  simp only [nextIndex]
  bv_omega

section
variable {s : State} (hc : s.cfg.ok = true)
include hc

theorem afterDataByte_eq : afterDataByte s =
    if s.idx.toNat < 511 then nextIndex s else { s with phase := .rdCrc, pos := .crc false } := by
  obtain ⟨hlen, -⟩ := Config.ok_facts hc
  simp only [afterDataByte, hlen, Nat.succ_lt_succ_iff]
  rfl

theorem afterSentByte_eq : afterSentByte s =
    if s.idx.toNat < 511 then nextIndex s else { s with phase := .wrCrc, pos := .stub false } := by
  obtain ⟨hlen, -⟩ := Config.ok_facts hc
  simp only [afterSentByte, hlen, Nat.succ_lt_succ_iff]
  rfl

variable (hblk : s.blk < s.count) (hi : s.idx.toNat < 512)
include hblk hi

/-- The access of a data byte of a block in flight is at `blk*512 + idx`, inside the buffer (20 R52). -/
theorem withinBuffer_block (k : Nat → Result) : withinBuffer s k = k (s.blk.toNat * 512 + s.idx.toNat) := by
  obtain ⟨hlen, -⟩ := Config.ok_facts hc
  rw [withinBuffer_inside (bufOffset_lt hlen hblk hi), bufOffset, hlen]

theorem dataByte_block (hph : s.phase = .rdData) (b : Byte) : dataByte b s = .next (afterDataByte (stored b s)) := by
  have hq : s.phase ≠ .qscData := by simp [hph]
  rw [dataByte, if_neg hq, withinBuffer_block hc hblk hi]
  rfl

end

/-! ## A byte received -/

theorem exec_data {s : State} {b : Byte} {rest : List Answer} (hc : s.cfg.ok = true) (hp : s.pos = .data)
    (hph : s.phase = .rdData) (hblk : s.blk < s.count) (hi : s.idx.toNat < 512) (hcard : s.card = .byte b :: rest) :
    exec .idleByte s = .next (afterDataByte (stored b (afterX s.cfg.idleByte b rest s))) := by
  rw [exec_idleByte_afterX (by simp [hp, sendsIdle]) hcard, ← dataByte_block (s := afterX ..) hc hblk hi hph]
  simp [idleExchanged, afterX, hp]

/-- Settles O14: the access is inside the buffer, and what a store leaves is the law of the host buffer. -/
theorem dataByteIsStored : Obligations.DataByteIsStored := by
  intro s b rest hc hwf hp hph hblk hi hcard
  have hread := Memory.read_write (s.blk.toNat * 512 + s.idx.toNat) b hwf
  rw [exec_data hc hp hph hblk hi hcard, afterDataByte_eq (s := stored b (afterX ..)) hc,
    show (stored b (afterX s.cfg.idleByte b rest s)).idx = s.idx from rfl]
  by_cases h : s.idx.toNat < 511
  · rw [if_pos h, if_pos h]
    exact ⟨_, rfl, hread, rfl⟩
  · rw [if_neg h, if_neg h]
    exact ⟨_, rfl, hread, rfl⟩

section
variable {s : State} {b : Byte} {rest : List Answer} (hn : noTick 1 s) (hc : s.cfg.ok = true) (hp : s.pos = .data)
  (hph : s.phase = .rdData) (hblk : s.blk < s.count) (hcard : s.card = .byte b :: rest)
include hn hc hp hph hblk hcard

theorem step_data (hi : s.idx.toNat < 512) :
    step s = .next (afterDataByte (stored b (stepX s.cfg.idleByte b rest s))) := by
  rw [step_idleByte hn hc (by simp [hp, sendsIdle]) hcard, ← dataByte_block (s := stepX ..) hc hblk hi hph]
  simp [idleExchanged, hp]

theorem step_data_more (hi : s.idx.toNat < 511) :
    step s = .next (nextIndex (stored b (stepX s.cfg.idleByte b rest s))) := by
  rw [step_data hn hc hp hph hblk hcard (by omega), afterDataByte_eq (s := stored b (stepX ..)) hc]
  exact congrArg _ (if_pos hi)

theorem step_data_last (hi : s.idx.toNat = 511) :
    step s = .next { stored b (stepX s.cfg.idleByte b rest s) with phase := .rdCrc, pos := .crc false } := by
  rw [step_data hn hc hp hph hblk hcard (by omega), afterDataByte_eq (s := stored b (stepX ..)) hc]
  exact congrArg _ (if_neg (Nat.not_lt.2 hi.ge))

end

/-! ## A block received -/

/-- The buffer `m` with the bytes `bs` written in order from offset `off` on. -/
def Memory.writeFrom (m : Memory) (off : Nat) : List Byte → Memory
  | [] => m
  | b :: bs => Memory.writeFrom (m.write off b) (off + 1) bs

theorem Memory.read_writeFrom_outside {m : Memory} (hm : Memory.wf m) {off k : Nat} {bs : List Byte}
    (hk : k < off ∨ off + bs.length ≤ k) : (m.writeFrom off bs).read k = m.read k := by
  induction bs generalizing m off with
  | nil => rfl
  | cons b bs ih =>
    rw [List.length_cons] at hk
    rw [Memory.writeFrom, ih (Memory.write_wf off b hm) (by omega), Memory.read_write off b hm, if_neg (by omega)]

theorem Memory.read_writeFrom_inside {m : Memory} (hm : Memory.wf m) {off k : Nat} {bs : List Byte} (hk : k < bs.length) :
    (m.writeFrom off bs).read (off + k) = bs[k] := by
  induction bs generalizing m off k with
  | nil => exact absurd hk (Nat.not_lt_zero k)
  | cons b bs ih =>
    have hw := Memory.write_wf off b hm
    cases k with
    | zero =>
      have hfirst : (m.write off b).read off = b := (Memory.read_write off b hm off).trans (if_pos rfl)
      exact (Memory.read_writeFrom_outside hw (.inl (Nat.lt_succ_self off))).trans hfirst
    | succ k => exact Nat.succ_add_eq_add_succ off k ▸ ih hw (Nat.lt_of_succ_lt_succ hk)

/-- The data bytes of a read block that are left from byte `j` on, and the CRC bytes after the last. -/
theorem run_data {bs : List Byte} {j : Nat} {s : State} {rest : List Answer} (hc : s.cfg.ok = true) (hp : s.pos = .data)
    (hph : s.phase = .rdData) (hblk : s.blk < s.count) (hidx : s.idx.toNat = j) (hlt : j < 512) (hleft : j + bs.length = 512)
    (hn : noTick bs.length s) (hcard : answering bs rest s) :
    run bs.length s = .next { s with
      hostbuf := s.hostbuf.writeFrom (s.blk.toNat * 512 + j) bs, idx := 511, phase := .rdCrc, pos := .crc false,
      card := rest, sched := s.sched.drop bs.length, trace := receiving s.cfg.idleByte bs ++ s.trace } := by
  induction bs generalizing j s with
  | nil => exact absurd hleft hlt.ne
  | cons b bs ih =>
    have hcard : s.card = .byte b :: (bs.map .byte ++ rest) := hcard
    rw [List.length_cons] at hleft
    rcases Nat.lt_or_ge (j + 1) 512 with hmore | hlast
    · refine run_turn hn hc (step_data_more · · hp hph hblk hcard (by omega)) fun hn hc => ?_
      rw [ih (j := j + 1) hc (by simpa using hp) (by simpa using hph) (by simpa using hblk)
        (nextIndex_idx (by simpa using hidx) (by omega)) hmore (by omega) hn rfl]
      simp [nextIndex, stored, stepX, afterX, turned, receiving, Memory.writeFrom, hidx, Nat.add_assoc]
    · obtain rfl : bs = [] := List.length_eq_zero_iff.1 (by omega)
      refine run_turn hn hc (step_data_last · · hp hph hblk hcard (by omega)) (fun _ _ => ?_) rfl rfl
      have hend : s.idx = 511 := by bv_omega
      simp [run_zero, stored, stepX, afterX, turned, receiving, Memory.writeFrom, hend, ← hidx]

/-- Settles O23: the run stores the bytes in order from `blk*512` on. -/
theorem readBlockIsDelivered : Obligations.ReadBlockIsDelivered := by
  intro s bs rest hc hwf hlen hn hp hph hidx hblk hcard
  have hrun := run_data (j := 0) hc hp hph hblk (by rw [hidx]; rfl) (by decide) (by omega) (hlen ▸ hn) hcard
  rw [hlen, Nat.add_zero] at hrun
  exact ⟨_, hrun, fun k hk => Memory.read_writeFrom_inside hwf hk,
    fun off hout => Memory.read_writeFrom_outside hwf (hlen ▸ hout), rfl, rfl, rfl, rfl, rfl, rfl⟩

/-! ## A byte sent -/

section
variable {s : State} {i : Byte} {rest : List Answer} (hn : noTick 1 s) (hc : s.cfg.ok = true) (hp : s.pos = .sendData)
  (hblk : s.blk < s.count) (hcard : s.card = .byte i :: rest)
include hn hc hp hblk hcard

theorem step_sendData (hi : s.idx.toNat < 512) :
    step s = .next (afterSentByte (stepX (s.hostbuf.read (s.blk.toNat * 512 + s.idx.toNat)) i rest s)) := by
  rw [step_turned hn hc, blockStep_sendData (s := turned s) hp, sendDataByte, withinBuffer_block (s := turned s) hc hblk hi,
    exchange_byte (s := turned s) hcard, exchanged_turned hcard]
  rfl

theorem step_sendData_more (hi : s.idx.toNat < 511) :
    step s = .next (nextIndex (stepX (s.hostbuf.read (s.blk.toNat * 512 + s.idx.toNat)) i rest s)) := by
  rw [step_sendData hn hc hp hblk hcard (by omega), afterSentByte_eq (s := stepX ..) hc]
  exact congrArg _ (if_pos hi)

theorem step_sendData_last (hi : s.idx.toNat = 511) :
    step s = .next { stepX (s.hostbuf.read (s.blk.toNat * 512 + s.idx.toNat)) i rest s with
      phase := .wrCrc, pos := .stub false } := by
  rw [step_sendData hn hc hp hblk hcard (by omega), afterSentByte_eq (s := stepX ..) hc]
  exact congrArg _ (if_neg (Nat.not_lt.2 hi.ge))

end

/-- Settles O20: the access is inside the buffer, and the received byte reaches nothing but the event. -/
theorem dataByteIsSent : Obligations.DataByteIsSent := by
  intro s i rest hc hn hp hblk hi hcard u
  rw [step_sendData hn hc hp hblk hcard hi, afterSentByte_eq (s := stepX ..) hc]
  rfl

/-! ## A block sent -/

/-- The data bytes of a written block that are left from byte `j` on, and the CRC stub after the last. -/
theorem run_sendData {is : List Byte} {j : Nat} {s : State} {rest : List Answer} (hc : s.cfg.ok = true) (hp : s.pos = .sendData)
    (hblk : s.blk < s.count) (hidx : s.idx.toNat = j) (hlt : j < 512) (hleft : j + is.length = 512)
    (hn : noTick is.length s) (hcard : answering is rest s) :
    run is.length s = .next { s with
      idx := 511, phase := .wrCrc, pos := .stub false, card := rest, sched := s.sched.drop is.length,
      trace := (is.mapIdx fun k i => Event.x (s.hostbuf.read (s.blk.toNat * 512 + (j + k))) i).reverse ++ s.trace } := by
  induction is generalizing j s with
  | nil => exact absurd hleft hlt.ne
  | cons i is ih =>
    have hcard : s.card = .byte i :: (is.map .byte ++ rest) := hcard
    rw [List.length_cons] at hleft
    rcases Nat.lt_or_ge (j + 1) 512 with hmore | hlast
    · refine run_turn hn hc (step_sendData_more · · hp hblk hcard (by omega)) fun hn hc => ?_
      rw [ih (j := j + 1) hc hp hblk (nextIndex_idx hidx (by omega)) hmore (by omega) hn rfl]
      simp [nextIndex, stepX, afterX, turned, List.mapIdx_cons, hidx, Nat.add_comm 1, Nat.add_assoc]
    · obtain rfl : is = [] := List.length_eq_zero_iff.1 (by omega)
      refine run_turn hn hc (step_sendData_last · · hp hblk hcard (by omega)) (fun _ _ => ?_) rfl rfl
      have hend : s.idx = 511 := by bv_omega
      simp [run_zero, stepX, afterX, turned, hend, ← hidx]

/-- Settles O24: the run sends the bytes in order from `blk*512` on. -/
theorem writeBlockIsSent : Obligations.WriteBlockIsSent := by
  intro s is rest hc hlen hn hp hidx hblk hcard
  have hrun := run_sendData (j := 0) hc hp hblk (by rw [hidx]; rfl) (by decide) (by omega) (hlen ▸ hn) hcard
  rw [hlen] at hrun
  exact ⟨_, hrun, rfl, rfl, rfl, rfl, rfl, by simp only [Nat.zero_add]⟩

/-! ## The addresses of the blocks -/

/-- A byte-addressed card is sent the sector times 512, and its last sector is the last that fits (43 R170, 20 R59). -/
theorem translate_byteAddressed {v : Version} (hv : v = .v1 ∨ v = .v2Byte ∨ v = .mmcV3) {sector : Word}
    (h : sector.toNat ≤ maxSector v) : (translate v sector).toNat = sector.toNat * 512 ∧ sector.toNat ≤ 0x007FFFFF := by
  have hshift : translate v sector = sector <<< 9 := by obtain rfl | rfl | rfl := hv <;> rfl
  have hmax : maxSector v = 0x007FFFFF := by obtain rfl | rfl | rfl := hv <;> rfl
  rw [hmax] at h
  refine ⟨?_, h⟩
  rw [hshift, BitVec.toNat_shiftLeft, Nat.shiftLeft_eq, Nat.mod_eq_of_lt (by omega)]

theorem maxSector_lt (v : Version) : maxSector v < 2 ^ 32 := by cases v <;> decide

/-- Settles O26: a block of an admitted operation is at most the card's last sector. -/
theorem addressesDoNotWrap : Obligations.AddressesDoNotWrap := by
  intro v sector count blk hadm hblk
  obtain ⟨-, hrange⟩ := (parametersOk_iff v sector count).1 hadm
  have hblk : blk.toNat < count.toNat := hblk
  have hmax := maxSector_lt v
  have hsum : (sector + blk).toNat = sector.toNat + blk.toNat := BitVec.toNat_add_of_lt (by omega)
  refine ⟨hsum, fun hv => by rw [hv]; rfl, fun hv => ?_⟩
  obtain ⟨htranslate, hle⟩ := translate_byteAddressed hv (sector := sector + blk) (by omega)
  rw [htranslate, hsum]
  omega

end Sys2Proof.Machine
end

section
/-! PROOFS. The host operations: what START admits, refuses and answers at once, what follows a block, and the card-size register (O15,
O25, O38 to O43). -/

namespace Sys2Proof.Machine

/-! ## Admission -/

theorem refuse_eq (st : Status) (s : State) : refuse st s = ended st .none s := rfl

theorem complete_none_eq (s : State) : complete .none s = ended .ok .none s := rfl

section
variable {body : State → State} {s : State}

theorem admitBlocks_noSession (h : s.ready = false ∨ s.version = .unknown) :
    admitBlocks body s = ended .notInitialized .none s := by
  have hsession : ¬ sessionOk s = true := by
    rw [sessionOk_iff]
    rintro ⟨hready, hv⟩
    exact h.elim (by simp [hready]) hv
  exact if_neg hsession

variable (hready : s.ready = true) (hv : s.version ≠ .unknown)
include hready hv

theorem admitBlocks_admitted (h : parametersOk s.version s.sector s.count = true) : admitBlocks body s = body s := by
  rw [admitBlocks, if_pos ((sessionOk_iff s).2 ⟨hready, hv⟩), if_pos h]

theorem admitBlocks_badParameters (h : ¬ parametersOk s.version s.sector s.count = true) :
    admitBlocks body s = ended .parameterError .none s := by
  rw [admitBlocks, if_pos ((sessionOk_iff s).2 ⟨hready, hv⟩), if_neg h, refuse_eq]

end

/-- The START of a READ whose admission gives `t`. -/
theorem exec_read {sector count : Word} {s t : State} (hp : s.pos = .idle)
    (h : admitBlocks (fun t => beginReadBlock { t with blk := 0 }) (started .read sector count s) = t) :
    exec (.read sector count) s = .next t :=
  (startOp_idle hp).trans (congrArg _ h)

/-- The START of a WRITE whose admission gives `t`. -/
theorem exec_write {sector count : Word} {s t : State} (hp : s.pos = .idle)
    (h : admitBlocks (fun t => beginWriteBlock { t with blk := 0 }) (started .write sector count s) = t) :
    exec (.write sector count) s = .next t :=
  (startOp_idle hp).trans (congrArg _ h)

section
variable {sector count : Word} {s : State} (hp : s.pos = .idle)
include hp

theorem exec_qcount_notImplemented (hq : s.cfg.hasQsc = false) :
    exec (.qcount sector count) s = .next (ended .parameterError .none (started .qcount sector count s)) := by
  rw [exec, execQcount, startOp_idle hp, started_cfg, hq]
  rfl

variable (hq : s.cfg.hasQsc = true)
include hq

theorem exec_qcount_noSession (h : s.ready = false ∨ s.version = .unknown) :
    exec (.qcount sector count) s = .next (ended .notInitialized .none (started .qcount sector count s)) := by
  have hsession : ¬ sessionOk (started .qcount sector count s) = true := by
    rw [sessionOk_iff]
    rintro ⟨hready, hv⟩
    exact h.elim (by simp [show s.ready = true from hready]) hv
  rw [exec, execQcount, startOp_idle hp, started_cfg, if_pos hq, if_neg hsession, refuse_eq]

theorem exec_qcount_admitted (hready : s.ready = true) (hv : s.version ≠ .unknown) :
    exec (.qcount sector count) s = .next (calling .cmd9 0 { started .qcount sector count s with phase := .qscCommand }) := by
  have hsession : sessionOk (started .qcount sector count s) = true := (sessionOk_iff _).2 ⟨hready, hv⟩
  rw [exec, execQcount, startOp_idle hp, started_cfg, if_pos hq, if_pos hsession, issueConst_eq]
  rfl

end

/-- Settles O40: the session check comes before the parameter checks. -/
theorem noSessionNoTransfer : Obligations.NoSessionNoTransfer :=
  fun _ _ _ hp h => ⟨exec_read hp (admitBlocks_noSession h), exec_write hp (admitBlocks_noSession h),
    fun hq => exec_qcount_noSession hp hq h⟩

/-- Settles O42: the test of `HAS_QSC` comes before the session check. -/
theorem queryCountAdmission : Obligations.QueryCountAdmission :=
  fun _ _ _ hp => ⟨exec_qcount_notImplemented hp, fun hq hready hv => exec_qcount_admitted hp hq hready hv⟩

theorem maxSector_eq (v : Version) : maxSector v = if v = .v2Block then 0xFFFFFFFF else 0x007FFFFF := by
  cases v <;> rfl

/-- Block 0 stands at the sector of START (44 R205). -/
theorem blockAddress_zero (s : State) : blockAddress { s with blk := 0 } = translate s.version s.sector :=
  congrArg (translate s.version) (BitVec.add_zero s.sector)

/-- Settles O41: the parameter checks are the range in unbounded arithmetic, and block 0 is at the sector asked for. -/
theorem parameterChecksDecideAdmission : Obligations.ParameterChecksDecideAdmission := by
  intro sector count s hp hready hv max good
  have hgood : parametersOk s.version sector count = true ↔ good := by rw [parametersOk_iff, maxSector_eq]
  refine ⟨fun h => ⟨exec_read hp ?read, exec_write hp ?write⟩, fun h => ⟨exec_read hp ?noRead, exec_write hp ?noWrite⟩⟩
  case read =>
    exact (admitBlocks_admitted (s := started ..) hready hv (hgood.2 h)).trans
      (congrArg (issue .cmd17 _) (blockAddress_zero (started .read sector count s)))
  case write =>
    exact (admitBlocks_admitted (s := started ..) hready hv (hgood.2 h)).trans
      (congrArg (issue .cmd24 _) (blockAddress_zero (started .write sector count s)))
  case noRead => exact admitBlocks_badParameters hready hv (mt hgood.1 h)
  case noWrite => exact admitBlocks_badParameters hready hv (mt hgood.1 h)

/-! ## Operations that end in their START step -/

section
variable {sector count : Word} {s : State} (hp : s.pos = .idle)
include hp

theorem exec_getver : exec (.getver sector count) s =
    .next (ended .ok .none { started .getver sector count s with result := s.version.code.setWidth 32 }) := by
  rw [exec, execGetver, startOp_idle hp, complete_none_eq]
  rfl

theorem exec_qsize (hc : s.cfg.ok = true) : exec (.qsize sector count) s =
    .next (ended .ok .none { started .qsize sector count s with result := 512 }) := by
  obtain ⟨hlen, -⟩ := Config.ok_facts hc
  rw [exec, execQsize, startOp_idle hp, complete_none_eq, started_cfg, hlen]
  rfl

end

/-- Settles O38: neither operation has an admission test. -/
theorem queriesAnswerAtOnce : Obligations.QueriesAnswerAtOnce := by
  intro sector count s hc hp hn
  refine ⟨⟨_, exec_getver hp, ?code, step_done hn hc rfl⟩, ⟨_, exec_qsize hp hc, rfl, step_done hn hc rfl⟩⟩
  cases s.version <;> rfl

/-- Settles O39: the START step refuses, whatever the session and the operands. -/
theorem reservedOperationsAreRefused : Obligations.ReservedOperationsAreRefused :=
  fun _ _ _ hc hp hn => ⟨⟨_, startOp_idle hp, rfl, step_done hn hc rfl⟩, ⟨_, startOp_idle hp, rfl, step_done hn hc rfl⟩⟩

/-! ## After a block -/

section
variable {s : State}

theorem afterReadBlock_next (h : s.blk.toNat + 1 < s.count.toNat) : afterReadBlock s =
    calling .cmd17 (translate s.version (s.sector + (s.blk + 1))) { s with blk := s.blk + 1, phase := .rdCommand } := by
  have hlt : s.blk + 1 < s.count := by bv_omega
  exact if_pos hlt

theorem afterReadBlock_last (h : s.blk.toNat + 1 = s.count.toNat) :
    afterReadBlock s = ended .ok .none { s with blk := s.count } := by
  have hcount : s.blk + 1 = s.count := by bv_omega
  have hend : ¬ s.blk + 1 < s.count := hcount ▸ BitVec.lt_irrefl _
  exact (if_neg hend).trans (by rw [hcount, complete_none_eq])

theorem afterWriteBlock_next (h : s.blk < s.count) : afterWriteBlock s =
    calling .cmd24 (translate s.version (s.sector + s.blk)) { s with phase := .wrCommand } :=
  if_pos h

theorem afterWriteBlock_last (h : s.blk = s.count) : afterWriteBlock s = ended .ok .none s := by
  have hend : ¬ s.blk < s.count := h ▸ BitVec.lt_irrefl _
  exact if_neg hend

end

/-- Settles O25: the count after the block against the count asked for. -/
theorem blocksFollowInOrder : Obligations.BlocksFollowInOrder := by
  intro s i rest hc hcard u
  refine ⟨fun hp => ?read, fun hp => ?write⟩ <;> rw [exec_released hp hcard]
  case read =>
    exact ⟨fun h => congrArg _ (afterReadBlock_next (s := afterX ..) h),
      fun h => congrArg _ (afterReadBlock_last (s := afterX ..) h)⟩
  case write =>
    exact ⟨fun h => congrArg _ (afterWriteBlock_next (s := afterX ..) h),
      fun h => congrArg _ (afterWriteBlock_last (s := afterX ..) h)⟩

/-! ## The card-size register -/

/-- `s` with byte `b` of the CSD stored at its place (44 R211). -/
def csdStored (b : Byte) (s : State) : State := { s with csd := s.csd.setIfInBounds s.idx.toNat b }

theorem csdStored_csd (b : Byte) (s : State) (k : Fin 16) :
    (csdStored b s).csd[k] = if k.val = s.idx.toNat then b else s.csd[k] :=
  (Vector.getElem_setIfInBounds k.isLt).trans (if_congr eq_comm rfl rfl)

theorem csdByte_eq {s : State} (hc : s.cfg.ok = true) (b : Byte) : csdByte b s =
    if s.idx.toNat < 15 then nextIndex (csdStored b s) else { csdStored b s with phase := .qscCrc, pos := .crc false } := by
  obtain ⟨-, hlen, -⟩ := Config.ok_facts hc
  simp only [csdByte, hlen, Nat.succ_lt_succ_iff]
  rfl

theorem exec_csdData {s : State} {b : Byte} {rest : List Answer} (hp : s.pos = .data) (hph : s.phase = .qscData)
    (hcard : s.card = .byte b :: rest) : exec .idleByte s = .next (csdByte b (afterX s.cfg.idleByte b rest s)) := by
  rw [exec_idleByte_afterX (by simp [hp, sendsIdle]) hcard]
  simp [idleExchanged, dataByte, afterX, hp, hph]

/-- Settles O15: the byte is stored first, and then the index or the phase moves on. -/
theorem csdByteIsStored : Obligations.CsdByteIsStored := by
  intro s b rest hc hp hph hi hcard
  rw [exec_csdData hp hph hcard, csdByte_eq (s := afterX ..) hc, show (afterX s.cfg.idleByte b rest s).idx = s.idx from rfl]
  by_cases h : s.idx.toNat < 15
  · rw [if_pos h, if_pos h]
    exact ⟨_, rfl, csdStored_csd b s, rfl⟩
  · rw [if_neg h, if_neg h]
    exact ⟨_, rfl, csdStored_csd b s, rfl⟩

/-- The structure version is the two top bits of the first byte (30 R87). -/
theorem csdStructure_eq_one_iff (csd : Vector Byte 16) : csdStructure csd = 1 ↔ csd[0].toNat / 64 = 1 := by
  rw [← BitVec.toNat_inj, csdStructure, BitVec.extractLsb'_toNat, Nat.shiftRight_eq_div_pow,
    Nat.mod_eq_of_lt (by have := csd[0].isLt; omega)]
  rfl

/-- The 22 bits of `c_size`, most significant byte first (44 R212). -/
theorem csdSize_toNat (csd : Vector Byte 16) :
    (csdSize csd).toNat = (csd[7].toNat % 64) * 65536 + csd[8].toNat * 256 + csd[9].toNat := by
  rw [csdSize, BitVec.toNat_append, BitVec.toNat_append, BitVec.extractLsb'_toNat, Nat.shiftRight_zero,
    ← Nat.shiftLeft_add_eq_or_of_lt csd[8].isLt, ← Nat.shiftLeft_add_eq_or_of_lt csd[9].isLt, Nat.shiftLeft_eq, Nat.shiftLeft_eq]
  omega

/-- Every size but the largest fits the result (44 R212). -/
theorem sectorsOf_toNat {cSize : BitVec 22} (h : cSize ≠ 0x3FFFFF) : (sectorsOf cSize).toNat = (cSize.toNat + 1) * 1024 := by
  have hne : cSize.toNat ≠ 0x3FFFFF := fun heq => h (BitVec.eq_of_toNat_eq heq)
  have hlt := cSize.isLt
  rw [sectorsOf, BitVec.toNat_shiftLeft, Nat.shiftLeft_eq, BitVec.toNat_add, BitVec.toNat_setWidth,
    show (1 : Word).toNat = 1 from rfl]
  omega

section
variable {s : State}

theorem parseCsd_supported (hver : csdStructure s.csd = 1) (hsize : csdSize s.csd ≠ 0x3FFFFF) :
    parseCsd s = ended .ok .none { s with result := sectorsOf (csdSize s.csd) } := by
  rw [parseCsd, if_neg (not_not_intro hver), if_neg hsize, complete_none_eq]

theorem parseCsd_unsupported (h : csdStructure s.csd ≠ 1 ∨ csdSize s.csd = 0x3FFFFF) :
    parseCsd s = raiseFail .csdUnsupported s := by
  by_cases hver : csdStructure s.csd = 1
  · rw [parseCsd, if_neg (not_not_intro hver), if_pos (h.resolve_left (not_not_intro hver))]
  · rw [parseCsd, if_pos hver]

end

/-- Settles O43: the two tests, and their fields, as natural numbers. -/
theorem csdGivesTheSectorCount : Obligations.CsdGivesTheSectorCount := by
  intro s i rest hp hop hcard cSize
  have hver := csdStructure_eq_one_iff s.csd
  have hsize : csdSize s.csd = 0x3FFFFF ↔ cSize = 0x3FFFFF := by
    rw [← BitVec.toNat_inj, csdSize_toNat]; rfl
  rw [exec_released hp hcard]
  refine ⟨fun hone hfits => ⟨sectorsOf (csdSize s.csd), ?result, congrArg _ ?supported⟩, fun h => congrArg _ ?unsupported⟩
  case result => rw [sectorsOf_toNat (mt hsize.1 hfits), csdSize_toNat]
  case supported => exact parseCsd_supported (s := afterX ..) (hver.2 hone) (mt hsize.1 hfits)
  case unsupported =>
    have hother : s.op ≠ .init := by simp [hop]
    exact (parseCsd_unsupported (s := afterX ..) (h.imp (mt hver.1) hsize.2)).trans (raiseFail_other hother)

end Sys2Proof.Machine
end

section
/-! PROOFS. The blocks a WRITE has counted: its START counts none, the byte that ends a busy-wait counts one, and no other step writes
`blk` (O60). -/

namespace Sys2Proof.Machine

/-! ## The places of a WRITE -/

/-- The places of the sequencer in the phases of a WRITE (43 R176 to R181). -/
inductive WritePlace : Pos → Prop where
  | issue : WritePlace (.issue .cmd24)
  | frame (k : Fin 6) : WritePlace (.frame .cmd24 k)
  | poll : WritePlace (.poll .cmd24)
  | leadDummy : WritePlace .leadDummy
  | leadToken : WritePlace .leadToken
  | sendData : WritePlace .sendData
  | stub (second : Bool) : WritePlace (.stub second)
  | dresp : WritePlace .dresp
  | busyWait : WritePlace .busyWait
  | deselect (a : After) : WritePlace (.deselect a)
  | returned : WritePlace (.release (.done .cmd24))
  | failed (f : Fail) : WritePlace (.release (.raise f))
  | abort : WritePlace .abort

theorem cmdPlace_op {c : Cmd} {p : Phase} (h : cmdPlace c p = true) : p.op? = some (homeOp c) := by
  cases c
  case cmd17 | cmd24 | cmd9 => rw [show p = _ from eq_of_beq h]; rfl
  all_goals exact spanEnd_op h

theorem homeOp_eq_write {c : Cmd} (h : homeOp c = .write) : c = .cmd24 := by
  cases c <;> simp [homeOp] at h ⊢

theorem writePlace_of_posPlace {q : Pos} {p : Phase} (h : posPlace q p = true) (hop : p.op? = some .write) : WritePlace q := by
  have hcmd {c : Cmd} (hc : p.op? = some (homeOp c)) : c = .cmd24 :=
    homeOp_eq_write (Option.some.inj (hc.symm.trans hop))
  have hnot {o : Op} (ho : p.op? = some o) (hne : o ≠ .write) : False := hne (Option.some.inj (ho.symm.trans hop))
  cases q
  case issue c => obtain rfl := hcmd (cmdPlace_op h); exact .issue
  case frame c k => obtain rfl := hcmd (cmdPlace_op h); exact .frame k
  case poll c => obtain rfl := hcmd (cmdPlace_op h); exact .poll
  case release a =>
    cases a with
    | done c => obtain rfl := hcmd (spanEnd_op h); exact .returned
    | raise f => exact .failed f
  case leadDummy => exact .leadDummy
  case leadToken => exact .leadToken
  case sendData => exact .sendData
  case stub second => exact .stub second
  case dresp => exact .dresp
  case busyWait => exact .busyWait
  case deselect a => exact .deselect a
  case abort => exact .abort
  case trail0 | trail1 | trail2 | trail3 => exact (hnot (trailPlace_op h) nofun).elim
  case csForce => nomatch h
  case tokenWait | data | crc => rcases phase_or h with rfl | rfl <;> nomatch hop
  case idle | done | clkSlow | powerOn | clkFast => obtain rfl := eq_of_beq h; nomatch hop

/-! ## What keeps the count -/

theorem raiseFail_blk (f : Fail) (s : State) : (raiseFail f s).blk = s.blk := by
  rw [raiseFail_frame]

theorem timedOut_blk (o : Byte) (s : State) : (timedOut o s).blk = s.blk := by
  rw [timedOut_frame]

theorem pollByte_blk (c : Cmd) (b : Byte) (s : State) : (pollByte c b s).blk = s.blk := by
  unfold pollByte
  dsimp only
  split
  · rw [(afterPoll_frame c _).1]
  · rfl

theorem afterFrameByte_blk (c : Cmd) (k : Fin 6) (s : State) : (afterFrameByte c k s).blk = s.blk := by
  unfold afterFrameByte
  split <;> rfl

theorem afterSentByte_blk (s : State) : (afterSentByte s).blk = s.blk := by
  unfold afterSentByte
  split <;> rfl

theorem afterStub_blk (second : Bool) (s : State) : (afterStub second s).blk = s.blk := by
  unfold afterStub
  split <;> rfl

theorem drespByte_blk (b : Byte) (s : State) : (drespByte b s).blk = s.blk := by
  unfold drespByte
  dsimp only
  split <;> rfl

theorem afterWriteBlock_blk (s : State) : (afterWriteBlock s).blk = s.blk := by
  unfold afterWriteBlock
  split <;> rfl

theorem busyByte_blk (b : Byte) (s : State) : (busyByte b s).blk = if b = 0xFF then s.blk + 1 else s.blk := by
  by_cases hb : b = 0xFF
  · rw [busyByte_released hb, if_pos hb]; rfl
  · rw [if_neg hb]
    by_cases hcnt : s.cnt = 0
    · rw [busyByte_fails hb hcnt]; rfl
    · rw [busyByte_waits hb hcnt]

theorem exchange_blk {o : Byte} {k : Byte → State → Result} {s t : State}
    (hk : ∀ {i u}, k i (exchanged o i s) = .next u → u.blk = s.blk) (h : exchange o k s = .next t) : t.blk = s.blk := by
  rcases exchange_cases h with ⟨-, rfl⟩ | ⟨i, rest, -, hi⟩ | ⟨rest, -, rfl⟩
  · rfl
  · exact hk hi
  · exact timedOut_blk o s

/-- A block below the count is counted without a wrap. -/
theorem blk_succ_toNat {blk count : Word} (h : blk < count) : (blk + 1).toNat = blk.toNat + 1 := by
  bv_omega

/-! ## What a step of a WRITE leaves in the count -/

/-- The busy-wait counts its block with the byte that ends it, before `deselect()` (44 R206, log 13). -/
theorem blockStep_busyWait_blk {s t : State} (hp : s.pos = .busyWait) (ht : blockStep s = .next t) :
    t.blk = if s.card.head? = some (.byte 0xFF) then s.blk + 1 else s.blk := by
  rw [blockStep_sendsIdle (by rw [hp]; rfl)] at ht
  rcases exchange_cases ht with ⟨hcard, rfl⟩ | ⟨i, rest, hcard, hi⟩ | ⟨rest, hcard, rfl⟩
  · simp [hcard]
  · simp only [idleExchanged, exchanged_pos, hp, Host.Outcome.next.injEq] at hi
    rw [← hi, busyByte_blk]
    simp [hcard]
  · simp [hcard, timedOut_blk]

section
variable {s t : State} (h : WritePlace s.pos) (hbusy : s.pos ≠ .busyWait)
include h hbusy

theorem WritePlace.idleExchanged_blk {b : Byte} (ht : idleExchanged b s = .next t) : t.blk = s.blk := by
  generalize hp : s.pos = q at h hbusy
  cases h <;> simp only [idleExchanged, hp, Host.Outcome.next.injEq, reduceCtorEq] at ht
  case busyWait => exact absurd rfl hbusy
  all_goals subst ht
  case poll => exact pollByte_blk .cmd24 b s
  case leadDummy => rfl
  case stub second => exact afterStub_blk second s
  case dresp => exact drespByte_blk b s
  case returned => exact afterWriteBlock_blk s
  case failed f => exact raiseFail_blk f s

theorem WritePlace.blockStep_blk (ht : blockStep s = .next t) : t.blk = s.blk := by
  by_cases hx : sendsIdle s.pos = true
  · rw [blockStep_sendsIdle hx] at ht
    exact exchange_blk (fun {i _} hk => WritePlace.idleExchanged_blk (s := exchanged _ i s) h hbusy hk) ht
  generalize hp : s.pos = q at h hx
  cases h <;> simp only [sendsIdle, not_true_eq_false] at hx
  case issue => rw [blockStep_issue hp, exec_command _ hp] at ht; cases ht; rfl
  case frame k =>
    rw [blockStep_frame hp] at ht
    exact exchange_blk (fun hk => by cases hk; exact afterFrameByte_blk _ k _) ht
  case leadToken =>
    rw [blockStep_leadToken hp] at ht
    exact exchange_blk (fun hk => by cases hk; rfl) ht
  case sendData =>
    rw [blockStep_sendData hp] at ht
    obtain ⟨-, ht⟩ := withinBuffer_next ht
    exact exchange_blk (fun hk => by cases hk; exact afterSentByte_blk _) ht
  case deselect a => rw [blockStep_deselect hp] at ht; cases ht; rfl
  case abort => rw [blockStep_abort hp] at ht; cases ht; exact raiseFail_blk _ _

end

/-- Every step of the block from a WRITE to its DONE: the operation stays, and only the end of a busy-wait counts a block. -/
theorem Inv.write_blockStep {s t : State} (h : Inv s) (hop : s.op = .write) (hp : s.pos ≠ .idle)
    (ht : Machine.blockStep s = .next t) :
    t.op = .write ∧ t.blk = if s.pos = .busyWait ∧ s.card.head? = some (.byte 0xFF) then s.blk + 1 else s.blk := by
  by_cases hfly : s.phase = .idle
  · have hdone : s.pos = .done := (posPlace_idle (hfly ▸ h.place)).resolve_left hp
    rw [blockStep_done hdone] at ht
    cases ht
    exact ⟨hop, by rw [if_neg (by simp [hdone])]; rfl⟩
  · obtain ⟨-, hkeep, -, -⟩ := (writesIn_blockStep h hfly ht).facts
    refine ⟨hkeep.trans hop, ?_⟩
    by_cases hbusy : s.pos = .busyWait
    · rw [blockStep_busyWait_blk hbusy ht]
      simp [hbusy]
    · obtain ⟨o, ho⟩ := Option.ne_none_iff_exists'.1 (mt Phase.op?_eq_none.1 hfly)
      have hwrite : s.phase.op? = some .write := by rw [ho, ← h.operation o ho, hop]
      rw [if_neg fun hends => hbusy hends.1]
      exact (writePlace_of_posPlace h.place hwrite).blockStep_blk hbusy ht

/-- The START of a WRITE, refused or admitted: admitted, it has counted no block. -/
theorem admitBlocks_write (s : State) : let t := admitBlocks (fun t => beginWriteBlock { t with blk := 0 }) s
    t.op = s.op ∧ (t.busy = true → t.blk = 0) := by
  unfold admitBlocks
  split
  · split
    · exact ⟨rfl, fun _ => rfl⟩
    · exact ⟨rfl, nofun⟩
  · exact ⟨rfl, nofun⟩

/-! ## The two ends spelled out -/

theorem step_busyWait {s : State} {b : Byte} {rest : List Answer} (hn : noTick 1 s) (hc : s.cfg.ok = true)
    (hp : s.pos = .busyWait) (hcard : s.card = .byte b :: rest) :
    step s = .next (busyByte b (stepX s.cfg.idleByte b rest s)) := by
  rw [step_idleByte hn hc (by simp [hp, sendsIdle]) hcard]
  simp [idleExchanged, hp]

section
variable {s : State} {rest : List Answer} (hc : s.cfg.ok = true) (hn : noTick 3 s) (hp : s.pos = .busyWait)
include hc hn hp

/-- The busy-wait ends and the release byte after it times out. -/
theorem run_released_timeout (hop : s.op ≠ .init) (hcard : s.card = .byte 0xFF :: .timeout :: rest) :
    run 3 s = .next (ended .ioError .busTimeout { s with
      blk := s.blk + 1, cs := .deasserted, card := rest, sched := s.sched.drop 3,
      trace := [.xt s.cfg.idleByte, .cs .deasserted, .x s.cfg.idleByte 0xFF] ++ s.trace }) := by
  refine run_turn hn hc (fun hn hc => (step_busyWait hn hc hp hcard).trans (congrArg _ (busyByte_released rfl)))
    (fun hn hc => ?_) rfl rfl
  rw [run_deselect_timeout hc hn rfl rfl, raiseFail_other (by exact hop)]
  simp [deselect, stepX, afterX, turned, ended, statusOf]

/-- The busy-wait ends by its countdown and the release byte after it is answered. -/
theorem run_busyTimeout {b i : Byte} (hop : s.op ≠ .init) (hb : b ≠ 0xFF) (hcnt : s.cnt = 0)
    (hcard : s.card = .byte b :: .byte i :: rest) :
    run 3 s = .next (ended .ioError .busyTimeout { s with
      cs := .deasserted, card := rest, sched := s.sched.drop 3,
      trace := [.x s.cfg.idleByte i, .cs .deasserted, .x s.cfg.idleByte b] ++ s.trace }) := by
  refine run_turn hn hc (fun hn hc => (step_busyWait hn hc hp hcard).trans (congrArg _ (busyByte_fails hb hcnt)))
    (fun hn hc => ?_) rfl rfl
  refine (run_deselect_byte hc hn rfl).trans ?_
  rw [afterRelease, raiseFail_other (by exact hop)]
  simp [deselect, stepX, afterX, turned, ended, statusOf]

end

/-- Settles O60: by what a step of a WRITE leaves in `blk`, which stands below `count` in a busy-wait and so does not wrap. -/
theorem failedWriteCountsEndedBusyWaits : Obligations.FailedWriteCountsEndedBusyWaits := by
  refine ⟨fun s t sector count buffer hs h hmove hp hh ht => ?start, fun s t h hop hp ht => ?step,
    fun s rest hc hn hp hop hblk => ⟨fun hcard => ?released, fun b i hb hcnt hcard => ?expired⟩⟩
  case start =>
    rw [step_block h.config hmove, blockStep_start (s := scheduled s) hp hh] at ht
    have hq : (presented 2 count buffer { scheduled s with host := hs }).pos = .idle := by rw [presented_frame]; exact hp
    cases (startOp_idle hq).symm.trans ht
    exact admitBlocks_write (started .write sector count _)
  case step =>
    obtain ⟨-, ⟨htick, rfl⟩ | ⟨hmove, hb⟩⟩ := step_cases ht
    · exact ⟨hop, fun hends => absurd (htick.symm.trans hends.1) nofun, fun _ => rfl⟩
    · obtain ⟨hop', hblk⟩ := h.scheduled.write_blockStep hop hp hb
      refine ⟨hop', fun hends => ?_, fun hnot => hblk.trans (if_neg fun hends => hnot ⟨hmove, hends⟩)⟩
      have hbusy : s.pos = .busyWait := hends.2.1
      have hplace : s.phase = .wrBusyWait := eq_of_beq (h.placeAt hbusy)
      obtain ⟨-, hlt, -⟩ := h.blocks (.inr (by rw [hplace]; rfl))
      have hcount : t.blk = s.blk + 1 := hblk.trans (if_pos hends.2)
      rw [hcount, blk_succ_toNat (hlt (by rw [hbusy]; rfl))]
  case released =>
    exact ⟨_, run_released_timeout hc hn hp (by simp [hop]) hcard, blk_succ_toNat hblk, rfl, rfl, rfl, rfl, rfl⟩
  case expired =>
    exact ⟨_, run_busyTimeout hc hn hp (by simp [hop]) hb hcnt hcard, rfl, rfl, rfl, rfl, rfl, rfl⟩

end Sys2Proof.Machine
end

section
/-! PROOFS. How an operation ends, and the tick: the failure raised after its `deselect()`, the bus timeout at any exchange, `DONE`, and
`TICK` at any position (O44 to O48). -/

namespace Sys2Proof.Machine

/-! ## A bus timeout -/

/-- Taking a failure, for both kinds of operation (60 R236, R238). -/
theorem raiseFail_eq_ite (f : Fail) (s : State) :
    raiseFail f s = if s.op = .init then initFailed (statusOf f) f s else ended (statusOf f) f s := by
  split
  case isTrue h => exact raiseFail_init h
  case isFalse h => exact raiseFail_other h

/-- In a state of the invariant the byte a WRITE sends is inside its buffer, so its step is an exchange. -/
theorem sendDataByte_eq_exchange {s : State} (h : Inv s) (hp : s.pos = .sendData) :
    sendDataByte s = exchange (s.hostbuf.read (bufOffset s.cfg s.blk s.idx)) (fun _ t => .next (afterSentByte t)) s := by
  have hph : s.phase = .wrData := eq_of_beq (h.placeAt hp)
  obtain ⟨-, -, hidx⟩ := h.index
  rw [sendDataByte, withinBuffer_inside (h.bufOffset_inside (.inr (by rw [hph]; rfl)) (by rw [hp]; rfl) (hidx hp))]

theorem busOut_sendsIdle {s : State} (h : sendsIdle s.pos = true) : busOut s = some s.cfg.idleByte := by
  cases hp : s.pos <;> simp only [hp, sendsIdle, Bool.false_eq_true] at h <;> simp only [busOut, hp]

/-- Where the block presents a byte, its step is the exchange that sends it (40 R100). -/
theorem blockStep_eq_exchange {s : State} {o : Byte} (h : Inv s) (ho : busOut s = some o) :
    ∃ k, blockStep s = exchange o k s := by
  by_cases hx : sendsIdle s.pos = true
  · have hidle : s.cfg.idleByte = o := Option.some.inj ((busOut_sendsIdle hx).symm.trans ho)
    exact ⟨_, hidle ▸ blockStep_sendsIdle hx⟩
  cases hp : s.pos <;> simp only [hp, sendsIdle, not_true_eq_false] at hx <;>
    simp only [busOut, hp, Option.some.injEq, reduceCtorEq] at ho <;> subst ho
  case frame c k => exact ⟨_, blockStep_frame hp⟩
  case leadToken => exact ⟨_, blockStep_leadToken hp⟩
  case sendData => exact ⟨_, (blockStep_sendData hp).trans (sendDataByte_eq_exchange h hp)⟩

/-- `s` after an exchange `XT(o)` of a step on which no tick falls, `rest` being the transport's answers after the timeout. -/
def stepXT (o : Byte) (rest : List Answer) (s : State) : State :=
  { s with card := rest, trace := .xt o :: s.trace, sched := s.sched.drop 1 }

/-- The step of an exchange that the transport does not complete, at any position that makes one. -/
theorem step_busTimeout {s : State} {o : Byte} {rest : List Answer} (h : Inv s) (hn : noTick 1 s) (ho : busOut s = some o)
    (hcard : s.card = .timeout :: rest) : step s = .next (busTimeout (stepXT o rest s)) := by
  have hturned : Inv (turned s) := h.unread rfl
  obtain ⟨k, hk⟩ := blockStep_eq_exchange hturned ho
  rw [step_turned hn h.config, hk, exchange_timeout (s := turned s) hcard]
  simp [timedOut, emit, stepXT, turned, hcard]

theorem step_abort {s : State} (hn : noTick 1 s) (hc : s.cfg.ok = true) (hp : s.pos = .abort) :
    step s = .next (raiseFail .busTimeout { s with
      cs := .deasserted, trace := .cs .deasserted :: s.trace, sched := s.sched.drop 1 }) := by
  rw [step_turned hn hc, blockStep_abort (s := turned s) hp]
  rfl

/-- Settles O47: where the block presents a byte its step is an exchange, whatever the position, and chip-select alone decides how
the timeout goes on. -/
theorem busTimeoutAborts : Obligations.BusTimeoutAborts := by
  refine ⟨fun s o rest h hn ho hcard => ?exchange, fun s hc hn hp => ?abort⟩
  case abort => exact (step_abort hn hc hp).trans (congrArg _ (raiseFail_eq_ite _ _))
  case exchange =>
    have hstep := step_busTimeout h (noTick_one hn) ho hcard
    refine ⟨fun hcs => ?inside, fun hcs => ?outside⟩
    case outside =>
      rw [hstep, busTimeout_released (by exact hcs), raiseFail_eq_ite]
      rfl
    case inside =>
      rw [busTimeout_selected (by exact hcs)] at hstep
      refine ⟨hstep, run_turn hn h.config (fun _ _ => hstep) (fun hn hc => ?_) rfl rfl⟩
      rw [run_one (step_abort hn hc rfl), raiseFail_eq_ite]
      simp only [stepXT, List.drop_drop]
      rfl

/-! ## A failure raised after its `deselect()` -/

/-- Settles O44: what follows the release byte is the failure itself. -/
theorem raiseAbandonsTheOperation : Obligations.RaiseAbandonsTheOperation := by
  intro f s i rest hp hcard
  rw [exec_released hp hcard]
  exact ⟨fun hop => congrArg _ (raiseFail_other hop), fun hop => congrArg _ (raiseFail_init hop)⟩

/-- Settles O45: the ten failure codes, one by one. -/
theorem statusOfEveryFailure : Obligations.StatusOfEveryFailure :=
  ⟨rfl, rfl, rfl, rfl, rfl, rfl, rfl, rfl, rfl, rfl⟩

/-! ## DONE -/

/-- While `busy` is 1 the sequencer is not where the host moves (10 R38). -/
theorem Inv.pos_ne_idle_of_busy {s : State} (h : Inv s) (hb : s.busy = true) : s.pos ≠ .idle :=
  fun hp => h.busyIff.1 hb (eq_of_beq (h.placeAt hp))

/-- Settles O46: the host reads at the idle position alone, which DONE reaches and no state in flight is at. -/
theorem doneReportsTheOutcome : Obligations.DoneReportsTheOutcome := by
  refine ⟨fun s hc hn hp => ⟨step_done hn hc hp, hostRead_idle (s := reported s) rfl⟩, fun s h hfly => hostRead_inFlight ?_⟩
  rcases hfly with hbusy | hdone
  · exact h.pos_ne_idle_of_busy hbusy
  · simp [hdone]

/-! ## The tick -/

theorem tick_ms_toNat (s : State) : (tick s).ms.toNat = (s.ms.toNat + 1) % 2 ^ 32 := BitVec.toNat_add s.ms 1

theorem tick_cnt_toNat (s : State) : (tick s).cnt.toNat = s.cnt.toNat - 1 := by
  show (if s.cnt = 0 then 0 else s.cnt - 1).toNat = _
  split
  · simp [*]
  · bv_omega

/-- Settles O48: the step is the tick agent's, whatever the position. -/
theorem tickCountsDown : Obligations.TickCountsDown := by
  intro s hc htick
  refine ⟨_, step_tick hc htick, tick_ms_toNat (scheduled s), tick_cnt_toNat (scheduled s), ?_⟩
  rw [scheduled_eq]
  rfl

end Sys2Proof.Machine
end

section
/-! PROOFS. The order of events on the bus (O56): what a step of the block emits at each position, against where the trace says
the bus stands. -/

namespace Sys2Proof.Machine

/-! ## Moves on the bus -/

/-- Wherever the bus may stand at `q`, the event `e` is allowed, and leaves it where it may stand at `q'`. -/
def BusMove (idle : Byte) (q : Pos) (e : Event) (q' : Pos) : Prop :=
  ∀ w, wirePlace q w = true → ∃ w', wireStep idle w e = some w' ∧ wirePlace q' w' = true

/-- A step that makes no event and leaves the sequencer in its place, or one event that is a move on the bus. -/
def BusStep (s t : State) : Prop :=
  (t.trace = s.trace ∧ t.pos = s.pos) ∨ ∃ e, t.trace = e :: s.trace ∧ BusMove s.cfg.idleByte s.pos e t.pos

theorem WireInv.busStep {s t : State} (h : WireInv s) (hcfg : t.cfg = s.cfg) (hbus : BusStep s t) : WireInv t := by
  obtain ⟨w, hw, hplace⟩ := h
  rcases hbus with ⟨htr, hpos⟩ | ⟨e, htr, hmove⟩
  · exact ⟨w, by rw [hcfg, htr, hw], by rw [hpos, hplace]⟩
  · obtain ⟨w', hstep, hplace'⟩ := hmove w hplace
    exact ⟨w', by rw [hcfg, htr, wireOf, hw]; exact hstep, hplace'⟩

/-- A move from a position at which the bus stands at `w₀` only. -/
theorem BusMove.of_only {idle : Byte} {q₀ q q' : Pos} {e : Event} {w₀ w' : Wire} (hq : q = q₀)
    (honly : wirePlace q₀ = (· == w₀))
    (hstep : wireStep idle w₀ e = some w') (hplace : wirePlace q' w' = true) : BusMove idle q e q' := by
  intro w hw
  rw [hq, honly] at hw
  exact ⟨w', eq_of_beq hw ▸ hstep, hplace⟩

theorem BusMove.tick (idle : Byte) (q : Pos) : BusMove idle q .tick q := fun w hw => ⟨w, rfl, hw⟩

/-! ## Exchanges -/

theorem raiseFail_pos (f : Fail) (s : State) : (raiseFail f s).pos = .done := by
  rw [raiseFail_frame]

theorem timedOut_pos_selected {s : State} (o : Byte) (h : s.cs = .asserted) : (timedOut o s).pos = .abort := by
  rw [timedOut, busTimeout_selected (by exact h)]

theorem timedOut_pos_released {s : State} (o : Byte) (h : s.cs = .deasserted) : (timedOut o s).pos = .done := by
  rw [timedOut, busTimeout_released (by exact h), raiseFail_pos]

/-- An exchange is a step on the bus if both its events are moves. -/
theorem busStep_exchange {s t : State} {o : Byte} {k : Byte → State → Result}
    (hbyte : ∀ {i t}, k i (exchanged o i s) = .next t →
      t.trace = .x o i :: s.trace ∧ BusMove s.cfg.idleByte s.pos (.x o i) t.pos)
    (htimeout : BusMove s.cfg.idleByte s.pos (.xt o) (timedOut o s).pos) (ht : exchange o k s = .next t) : BusStep s t := by
  rcases exchange_cases ht with ⟨-, rfl⟩ | ⟨i, rest, -, hi⟩ | ⟨rest, -, rfl⟩
  · exact .inl ⟨rfl, rfl⟩
  · exact .inr ⟨_, hbyte hi⟩
  · exact .inr ⟨_, timedOut_trace o s, htimeout⟩

/-! ## Inside a span

At the positions of an open span but the abort's, the bus is `selected` and nothing else. -/

theorem wirePlace_of_selected {q : Pos} (h : wirePlace q .selected = true) : wirePlace q = (· == .selected) := by
  cases q <;> cases h <;> rfl

theorem spanOpen_of_selected {q : Pos} (h : wirePlace q .selected = true) : spanOpen q = true := by
  cases q <;> cases h <;> rfl

/-- An exchange inside a span stays there, or times out and leaves `CS(0)` due (60 R237). -/
theorem busStep_span {s t : State} (h : Inv s) {o : Byte} {k : Byte → State → Result}
    (hq : wirePlace s.pos .selected = true)
    (hk : ∀ {i t}, k i (exchanged o i s) = .next t →
      t.trace = .x o i :: s.trace ∧ wirePlace t.pos .selected = true) (ht : exchange o k s = .next t) : BusStep s t := by
  have honly := wirePlace_of_selected hq
  refine busStep_exchange (fun hi => ?_) ?_ ht
  · obtain ⟨htr, hq'⟩ := hk hi
    exact ⟨htr, .of_only rfl honly rfl hq'⟩
  · rw [timedOut_pos_selected o (h.select.2 (spanOpen_of_selected hq))]
    exact .of_only rfl honly rfl rfl

theorem afterFrameByte_selected (c : Cmd) (k : Fin 6) (s : State) :
    wirePlace (afterFrameByte c k s).pos .selected = true := by
  unfold afterFrameByte
  split <;> rfl

theorem afterPoll_selected (c : Cmd) (s : State) : wirePlace (afterPoll c s).pos .selected = true := by
  cases c <;> simp only [afterPoll]
  case cmd8 | cmd58 | cmd17 | cmd24 | cmd9 => split <;> rfl
  all_goals rfl

theorem afterSentByte_selected {s : State} (hp : s.pos = .sendData) : wirePlace (afterSentByte s).pos .selected = true := by
  unfold afterSentByte
  split
  · exact hp ▸ rfl
  · rfl

theorem dataByte_selected {b : Byte} {s t : State} (hp : s.pos = .data) (ht : dataByte b s = .next t) :
    wirePlace t.pos .selected = true := by
  unfold dataByte at ht
  split at ht
  · cases ht
    unfold csdByte
    dsimp only
    split
    · exact hp ▸ rfl
    · rfl
  · cases (withinBuffer_next ht).2
    unfold afterDataByte
    dsimp only
    split
    · exact hp ▸ rfl
    · rfl

/-- A byte received inside a span leaves the sequencer inside it; only a timeout leads to the abort. -/
theorem idleExchanged_selected {b : Byte} {s t : State} (hq : wirePlace s.pos .selected = true)
    (ht : idleExchanged b s = .next t) : wirePlace t.pos .selected = true := by
  cases hp : s.pos <;> simp only [idleExchanged, hp, Host.Outcome.next.injEq, reduceCtorEq] at ht
  case data => exact dataByte_selected hp ht
  all_goals subst ht
  case powerOn | release => rw [hp] at hq; cases hq
  case trail0 | trail1 | trail2 | trail3 | leadDummy => rfl
  case poll c =>
    unfold pollByte
    dsimp only
    split
    · exact afterPoll_selected c _
    · exact hq
  case tokenWait =>
    unfold tokenByte
    split
    · split <;> rfl
    · rfl
    · split
      · rfl
      · exact hq
  case crc second => unfold crcByteReceived; split <;> rfl
  case stub second => unfold afterStub; split <;> rfl
  case dresp =>
    unfold drespByte
    dsimp only
    split <;> rfl
  case busyWait =>
    unfold busyByte
    split
    · rfl
    · split
      · rfl
      · exact hq

/-! ## Outside a span -/

theorem beginForceBlockLength_free (s : State) : wirePlace (beginForceBlockLength s).pos .free = true := by
  unfold beginForceBlockLength
  dsimp only
  split <;> rfl

theorem raiseFail_free (f : Fail) (s : State) : wirePlace (raiseFail f s).pos .free = true := by
  rw [raiseFail_pos]; rfl

theorem legacySdTest_free (s : State) : wirePlace (legacySdTest s).pos .free = true := by
  unfold legacySdTest
  split
  · exact beginForceBlockLength_free _
  · split
    · exact raiseFail_free _ _
    · rfl

/-- After a span the next event is the `CS(1)` of a command, `CLK(Fast)` or `DONE`: no exchange (70 R267). -/
theorem afterSpan_free (c : Cmd) (s : State) : wirePlace (afterSpan c s).pos .free = true := by
  cases c <;> simp only [afterSpan]
  case cmd0 => unfold afterReset; split; exacts [rfl, raiseFail_free _ _]
  case cmd8 =>
    unfold afterVoltageCheck
    split
    · split
      · rfl
      · split; exacts [raiseFail_free _ _, rfl]
    · rfl
  case cmd55 =>
    unfold afterMarker
    split
    · rfl
    · split <;> rfl
  case acmd41Hcs =>
    unfold afterSdv2OpCond
    split
    · rfl
    · split; exacts [raiseFail_free _ _, rfl]
  case acmd41Legacy =>
    unfold afterLegacyOpCond
    split
    · split; exacts [rfl, legacySdTest_free _]
    · exact legacySdTest_free s
  case cmd58 => unfold afterOcr; split; exacts [beginForceBlockLength_free _, raiseFail_free _ _]
  case cmd1 =>
    unfold afterLegacyInitiate
    split
    · exact beginForceBlockLength_free _
    · split; exacts [raiseFail_free _ _, rfl]
  case cmd16 =>
    unfold afterBlockLength
    split
    · rfl
    · split; exacts [raiseFail_free _ _, rfl]
  case cmd17 => unfold afterReadBlock; dsimp only; split <;> rfl
  case cmd24 => unfold afterWriteBlock; split <;> rfl
  case cmd9 =>
    unfold parseCsd
    split
    · exact raiseFail_free _ _
    · split; exacts [raiseFail_free _ _, rfl]

theorem afterRelease_free (a : After) (s : State) : wirePlace (afterRelease a s).pos .free = true := by
  cases a with
  | done c => exact afterSpan_free c s
  | raise f => exact raiseFail_free f s

theorem powerOnByte_rest (sent : Nat) (s : State) : wirePlace (powerOnByte sent s).pos .rest = true := by
  unfold powerOnByte
  split <;> rfl

/-- An exchange of the idle byte outside a span; a timeout ends the operation (60 R237). -/
theorem busStep_released {s t : State} (h : Inv s) {q : Pos} {w w' : Wire} (hp : s.pos = q) (hspan : spanOpen q = false)
    (honly : wirePlace q = (· == w)) (hx : ∀ i, wireStep s.cfg.idleByte w (.x s.cfg.idleByte i) = some w')
    (hxt : wireStep s.cfg.idleByte w (.xt s.cfg.idleByte) = some .aborted)
    (hk : ∀ {i t}, idleExchanged i (exchanged s.cfg.idleByte i s) = .next t → wirePlace t.pos w' = true)
    (ht : exchange s.cfg.idleByte idleExchanged s = .next t) : BusStep s t := by
  refine busStep_exchange (fun hi => ⟨idleExchanged_trace hi, .of_only hp honly (hx _) (hk hi)⟩) ?_ ht
  rw [timedOut_pos_released _ (h.deasserted hp hspan)]
  exact .of_only hp honly hxt rfl

/-- The release byte is the one exchange between `CS(0)` and the next `CS(1)` (41 R126). -/
theorem busStep_release {s t : State} {a : After} (h : Inv s) (hp : s.pos = .release a)
    (ht : exchange s.cfg.idleByte idleExchanged s = .next t) : BusStep s t := by
  refine busStep_released h (w := .closing) (w' := .free) hp rfl rfl (by simp [wireStep]) (by simp [wireStep]) (fun hi => ?_) ht
  simp only [idleExchanged, exchanged_pos, hp, Host.Outcome.next.injEq] at hi
  exact hi ▸ afterRelease_free a _

/-- The power-on bytes are idle bytes before the first `CS(1)` (40 R106, R108). -/
theorem busStep_powerOn {s t : State} {sent : Nat} (h : Inv s) (hp : s.pos = .powerOn sent)
    (ht : exchange s.cfg.idleByte idleExchanged s = .next t) : BusStep s t := by
  refine busStep_released h (w := .rest) (w' := .rest) hp rfl rfl (by simp [wireStep]) (by simp [wireStep]) (fun hi => ?_) ht
  simp only [idleExchanged, exchanged_pos, hp, Host.Outcome.next.injEq] at hi
  exact hi ▸ powerOnByte_rest sent _

/-! ## The idle block -/

theorem admitBlocks_rest {body : State → State} {s : State} (hb : wirePlace (body s).pos .rest = true) :
    wirePlace (admitBlocks body s).pos .rest = true := by
  unfold admitBlocks
  split
  · split
    · exact hb
    · rfl
  · rfl

/-- The START step of every operation leads to `CLK(Slow)`, the first command or `DONE`. -/
theorem exec_decodeOp_rest {s t : State} (hp : s.pos = .idle) {op : BitVec 3} {sector count : Word}
    (ht : exec (decodeOp op sector count) s = .next t) : wirePlace t.pos .rest = true := by
  match op with
  | 0 | 6 | 7 => cases (startOp_idle hp).symm.trans ht; rfl
  | 1 | 2 => cases (startOp_idle hp).symm.trans ht; exact admitBlocks_rest rfl
  | 3 => simp only [decodeOp, exec, execGetver] at ht; cases (startOp_idle hp).symm.trans ht; rfl
  | 5 => simp only [decodeOp, exec, execQsize] at ht; cases (startOp_idle hp).symm.trans ht; rfl
  | 4 =>
    simp only [decodeOp, exec, execQcount] at ht
    cases (startOp_idle hp).symm.trans ht
    split
    · split <;> rfl
    · rfl

theorem busStep_idle {s t : State} (hp : s.pos = .idle) (ht : blockStep s = .next t) : BusStep s t := by
  match hh : s.host with
  | [] => rw [blockStep_idle hp hh] at ht; cases ht; exact .inl ⟨rfl, rfl⟩
  | .poke off b :: hs => rw [blockStep_poke hp hh] at ht; cases ht; exact .inl ⟨rfl, rfl⟩
  | .reset :: hs => rw [blockStep_hardwareReset hp hh] at ht; cases ht; exact .inl ⟨rfl, hp.symm⟩
  | .start op sector count buffer :: hs =>
    rw [blockStep_start hp hh, presented_frame] at ht
    obtain ⟨u, hu, htr⟩ := exec_decodeOp (s := { s with host := hs, hostbuf := _, earlier := _ }) hp op sector count
    cases hu.symm.trans ht
    exact .inr ⟨_, htr, .of_only hp rfl rfl (exec_decodeOp_rest (by exact hp) ht)⟩

/-! ## No step writes the configuration -/

theorem writtenBy_cfg (o : Op) (s t : State) : (writtenBy o s t).cfg = s.cfg := by
  cases o <;> rfl

theorem blockStep_idle_cfg {s t : State} (hp : s.pos = .idle) (ht : blockStep s = .next t) : t.cfg = s.cfg := by
  match hh : s.host with
  | [] => rw [blockStep_idle hp hh] at ht; cases ht; rfl
  | .poke off b :: hs => rw [blockStep_poke hp hh] at ht; cases ht; rfl
  | .reset :: hs => rw [blockStep_hardwareReset hp hh] at ht; cases ht; rfl
  | .start op sector count buffer :: hs =>
    rw [blockStep_start hp hh, presented_frame] at ht
    obtain ⟨hset, -⟩ := startWrites_exec (by exact hp) ht
    exact (congrArg State.cfg hset).trans (writtenBy_cfg _ _ _)

theorem blockStep_cfg {s t : State} (h : Inv s) (ht : blockStep s = .next t) : t.cfg = s.cfg := by
  by_cases hfly : s.phase = .idle
  · rcases posPlace_idle (hfly ▸ h.place) with hp | hp
    · exact blockStep_idle_cfg hp ht
    · rw [blockStep_done hp] at ht; cases ht; rfl
  · obtain ⟨hset, -⟩ := (writesIn_blockStep h hfly ht).facts
    exact (congrArg State.cfg hset).trans (writtenBy_cfg _ _ _)

/-! ## The statement -/

theorem busStep_sendsIdle {s t : State} (h : Inv s) (hx : sendsIdle s.pos = true) (ht : blockStep s = .next t) :
    BusStep s t := by
  rw [blockStep_sendsIdle hx] at ht
  by_cases hq : wirePlace s.pos .selected = true
  · refine busStep_span h hq (fun hi => ⟨idleExchanged_trace hi, ?_⟩) ht
    exact idleExchanged_selected (s := exchanged ..) hq hi
  · cases hp : s.pos <;> simp only [hp, sendsIdle, Bool.false_eq_true] at hx
    case powerOn => exact busStep_powerOn h hp ht
    case release => exact busStep_release h hp ht
    all_goals exact absurd (hp ▸ rfl) hq

theorem busStep_of_blockStep {s t : State} (h : Inv s) (ht : blockStep s = .next t) : BusStep s t := by
  by_cases hx : sendsIdle s.pos = true
  · exact busStep_sendsIdle h hx ht
  cases hp : s.pos <;> simp only [hp, sendsIdle, not_true_eq_false] at hx
  case idle => exact busStep_idle hp ht
  case frame c k =>
    rw [blockStep_frame hp] at ht
    refine busStep_span h (hp ▸ rfl) (fun hi => ?_) ht
    cases hi
    exact ⟨afterFrameByte_trace c k _, afterFrameByte_selected c k _⟩
  case leadToken =>
    rw [blockStep_leadToken hp] at ht
    refine busStep_span h (hp ▸ rfl) (fun hi => ?_) ht
    cases hi
    exact ⟨rfl, rfl⟩
  case sendData =>
    rw [blockStep_sendData hp] at ht
    refine busStep_span h (hp ▸ rfl) (fun hi => ?_) (withinBuffer_next ht).2
    cases hi
    exact ⟨afterSentByte_trace _, afterSentByte_selected hp⟩
  all_goals refine .inr ?_
  case issue c =>
    rw [blockStep_issue hp, exec_command _ hp] at ht; cases ht
    refine ⟨_, rfl, fun w hw => ⟨.selected, if_pos ?_, rfl⟩⟩
    simpa [hp, wirePlace] using hw
  case deselect a => rw [blockStep_deselect hp] at ht; cases ht; exact ⟨_, rfl, .of_only hp rfl rfl rfl⟩
  case abort =>
    rw [blockStep_abort hp] at ht; cases ht
    refine ⟨_, raiseFail_trace _ _, .of_only hp rfl rfl ?_⟩
    rw [raiseFail_pos]; rfl
  case clkSlow =>
    rw [blockStep_clkSlow hp] at ht; cases ht
    refine ⟨_, clockDown_trace s, .of_only hp rfl rfl ?_⟩
    unfold clockDown
    dsimp only
    split <;> rfl
  case csForce => nomatch (show false = true from h.placeAt hp)
  case clkFast => rw [blockStep_clkFast hp] at ht; cases ht; exact ⟨_, rfl, .of_only hp rfl rfl rfl⟩
  case done =>
    rw [blockStep_done hp] at ht; cases ht
    refine ⟨_, rfl, fun w hw => ⟨.rest, if_pos ?_, rfl⟩⟩
    simpa [hp, wirePlace, or_assoc] using hw

/-- Settles O56: a tick is allowed anywhere, and at every position a step of the block makes no event, or one that is allowed wherever
the bus may stand there. -/
theorem stepKeepsTheBusOrder : Obligations.StepKeepsTheBusOrder := by
  intro s t h hw ht
  obtain ⟨-, ⟨-, rfl⟩ | ⟨-, hb⟩⟩ := step_cases ht
  · exact hw.busStep rfl (.inr ⟨_, rfl, .tick _ _⟩)
  · have hs : Inv (scheduled s) := h.scheduled
    exact WireInv.busStep (s := scheduled s) hw (blockStep_cfg hs hb) (busStep_of_blockStep hs hb)

end Sys2Proof.Machine
end

section
/-! PROOFS. The two timeout mechanisms (O49): the R1 poll and the countdown, each run from two states that differ in the counter of
the other. -/

namespace Sys2Proof.Machine

/-! ## Two states at one position -/

/-- At a position that sends the idle byte, two states with the same answers to come step to related states, if the three ways an
exchange goes are related. -/
theorem blockStep_related {R : State → State → Prop} {s u t : State} (hx : sendsIdle s.pos = true) (hpos : u.pos = s.pos)
    (hcard : u.card = s.card) (hwait : R s u)
    (hbyte : ∀ {i t}, idleExchanged i (exchanged s.cfg.idleByte i s) = .next t →
      ∃ t', idleExchanged i (exchanged u.cfg.idleByte i u) = .next t' ∧ R t t')
    (htimeout : R (timedOut s.cfg.idleByte s) (timedOut u.cfg.idleByte u)) (ht : blockStep s = .next t) :
    ∃ t', blockStep u = .next t' ∧ R t t' := by
  have hxu : sendsIdle u.pos = true := hpos ▸ hx
  rw [blockStep_sendsIdle hx] at ht
  rcases exchange_cases ht with ⟨hc, rfl⟩ | ⟨i, rest, hc, hi⟩ | ⟨rest, hc, rfl⟩
  · exact ⟨u, blockStep_wait hxu (hcard.trans hc), hwait⟩
  · obtain ⟨t', ht', hr⟩ := hbyte hi
    exact ⟨t', (blockStep_byte hxu (hcard.trans hc)).trans ht', hr⟩
  · exact ⟨_, blockStep_timeout hxu (hcard.trans hc), htimeout⟩

section
variable {s : State} {b : Byte}

theorem idleExchanged_poll {c : Cmd} (hp : s.pos = .poll c) : idleExchanged b s = .next (pollByte c b s) := by
  simp only [idleExchanged, hp]

theorem idleExchanged_tokenWait (hp : s.pos = .tokenWait) : idleExchanged b s = .next (tokenByte b s) := by
  simp only [idleExchanged, hp]

theorem idleExchanged_busyWait (hp : s.pos = .busyWait) : idleExchanged b s = .next (busyByte b s) := by
  simp only [idleExchanged, hp]

theorem idleExchanged_release {a : After} (hp : s.pos = .release a) : idleExchanged b s = .next (afterRelease a s) := by
  simp only [idleExchanged, hp]

end

/-! ## The R1 poll does not read the countdown -/

theorem raiseFail_withCnt (f : Fail) (v : BitVec 16) (s : State) :
    raiseFail f { s with cnt := v } = { raiseFail f s with cnt := v } := by
  unfold raiseFail
  dsimp only
  split <;> rfl

theorem busTimeout_withCnt (v : BitVec 16) (s : State) :
    busTimeout { s with cnt := v } = { busTimeout s with cnt := v } := by
  unfold busTimeout
  dsimp only
  split
  · rfl
  · exact raiseFail_withCnt _ v s

theorem timedOut_withCnt (o : Byte) (v : BitVec 16) (s : State) :
    timedOut o { s with cnt := v } = { timedOut o s with cnt := v } :=
  busTimeout_withCnt v (emit (.xt o) { s with card := s.card.tail })

/-- The end of the poll may load the countdown (43 R173), and never reads it. -/
theorem afterPoll_withCnt (c : Cmd) (v : BitVec 16) (s : State) :
    ∃ w, afterPoll c { s with cnt := v } = { afterPoll c s with cnt := w } := by
  cases c <;> simp only [afterPoll]
  case cmd8 | cmd58 | cmd17 | cmd24 | cmd9 => split <;> exact ⟨_, rfl⟩
  all_goals exact ⟨_, rfl⟩

theorem pollByte_withCnt (c : Cmd) (b : Byte) (v : BitVec 16) (s : State) :
    ∃ w, pollByte c b { s with cnt := v } = { pollByte c b s with cnt := w } := by
  unfold pollByte
  dsimp only
  split
  · exact afterPoll_withCnt c v { s with r1 := b, pollCnt := s.pollCnt - 1 }
  · exact ⟨_, rfl⟩

theorem idleExchanged_poll_withCnt {s t : State} {c : Cmd} (hp : s.pos = .poll c) {b : Byte} (v : BitVec 16)
    (ht : idleExchanged b s = .next t) : ∃ w, idleExchanged b { s with cnt := v } = .next { t with cnt := w } := by
  cases (idleExchanged_poll hp).symm.trans ht
  obtain ⟨w, hw⟩ := pollByte_withCnt c b v s
  exact ⟨w, (idleExchanged_poll (by exact hp)).trans (congrArg _ hw)⟩

theorem blockStep_poll_withCnt {s t : State} {c : Cmd} (hp : s.pos = .poll c) (v : BitVec 16) (ht : blockStep s = .next t) :
    ∃ w, blockStep { s with cnt := v } = .next { t with cnt := w } := by
  obtain ⟨_, ht', w, rfl⟩ := blockStep_related (R := fun t t' => ∃ w, t' = { t with cnt := w }) (s := s)
    (u := { s with cnt := v }) (by rw [hp]; rfl) rfl rfl ⟨v, rfl⟩
    (fun hi => have ⟨w, hw⟩ := idleExchanged_poll_withCnt (s := exchanged _ _ s) hp v hi; ⟨_, hw, w, rfl⟩)
    ⟨v, timedOut_withCnt _ v s⟩ ht
  exact ⟨w, ht'⟩

/-! ## The countdown's places do not read the budget of the poll -/

theorem raiseFail_withPollCnt (f : Fail) (v : BitVec 8) (s : State) :
    raiseFail f { s with pollCnt := v } = { raiseFail f s with pollCnt := v } := by
  unfold raiseFail
  dsimp only
  split <;> rfl

theorem busTimeout_withPollCnt (v : BitVec 8) (s : State) :
    busTimeout { s with pollCnt := v } = { busTimeout s with pollCnt := v } := by
  unfold busTimeout
  dsimp only
  split
  · rfl
  · exact raiseFail_withPollCnt _ v s

theorem timedOut_withPollCnt (o : Byte) (v : BitVec 8) (s : State) :
    timedOut o { s with pollCnt := v } = { timedOut o s with pollCnt := v } :=
  busTimeout_withPollCnt v (emit (.xt o) { s with card := s.card.tail })

theorem expired_withPollCnt (v : BitVec 8) (s : State) : expired { s with pollCnt := v } = expired s := rfl

theorem tokenByte_withPollCnt (b : Byte) (v : BitVec 8) (s : State) :
    tokenByte b { s with pollCnt := v } = { tokenByte b s with pollCnt := v } := by
  unfold tokenByte
  rw [expired_withPollCnt]
  dsimp only
  split
  · split <;> rfl
  · rfl
  · split <;> rfl

theorem busyByte_withPollCnt (b : Byte) (v : BitVec 8) (s : State) :
    busyByte b { s with pollCnt := v } = { busyByte b s with pollCnt := v } := by
  unfold busyByte
  rw [expired_withPollCnt]
  split
  · rfl
  · split <;> rfl

theorem beginForceBlockLength_withPollCnt (v : BitVec 8) (s : State) :
    beginForceBlockLength { s with pollCnt := v } = { beginForceBlockLength s with pollCnt := v } := by
  unfold beginForceBlockLength
  dsimp only
  split <;> rfl

theorem legacySdTest_withPollCnt (v : BitVec 8) (s : State) :
    legacySdTest { s with pollCnt := v } = { legacySdTest s with pollCnt := v } := by
  unfold legacySdTest
  rw [expired_withPollCnt]
  dsimp only
  split
  · exact beginForceBlockLength_withPollCnt v { s with version := .v1 }
  · split
    · exact raiseFail_withPollCnt _ v s
    · rfl

theorem afterSpan_withPollCnt (c : Cmd) (v : BitVec 8) (s : State) :
    afterSpan c { s with pollCnt := v } = { afterSpan c s with pollCnt := v } := by
  have hfail (f : Fail) : raiseFail f { s with pollCnt := v } = { raiseFail f s with pollCnt := v } :=
    raiseFail_withPollCnt f v s
  cases c <;> simp only [afterSpan]
  case cmd0 => unfold afterReset; dsimp only; split; exacts [rfl, hfail _]
  case cmd8 =>
    unfold afterVoltageCheck
    dsimp only
    split
    · split
      · rfl
      · split; exacts [hfail _, rfl]
    · rfl
  case cmd55 =>
    unfold afterMarker
    dsimp only
    split
    · rfl
    · split <;> rfl
  case acmd41Hcs =>
    unfold afterSdv2OpCond
    rw [expired_withPollCnt]
    dsimp only
    split
    · rfl
    · split; exacts [hfail _, rfl]
  case acmd41Legacy =>
    unfold afterLegacyOpCond
    dsimp only
    split
    · split
      · rfl
      · exact legacySdTest_withPollCnt v { s with path := .sd1, phase := .initLegacyWait }
    · exact legacySdTest_withPollCnt v s
  case cmd58 =>
    unfold afterOcr
    dsimp only
    split
    · exact beginForceBlockLength_withPollCnt v { s with version := _ }
    · exact hfail _
  case cmd1 =>
    unfold afterLegacyInitiate
    rw [expired_withPollCnt]
    dsimp only
    split
    · exact beginForceBlockLength_withPollCnt v { s with version := .mmcV3 }
    · split; exacts [hfail _, rfl]
  case cmd16 =>
    unfold afterBlockLength
    dsimp only
    split
    · rfl
    · split; exacts [hfail _, rfl]
  case cmd17 => unfold afterReadBlock; dsimp only; split <;> rfl
  case cmd24 => unfold afterWriteBlock; dsimp only; split <;> rfl
  case cmd9 =>
    unfold parseCsd
    dsimp only
    split
    · exact hfail _
    · split; exacts [hfail _, rfl]

theorem afterRelease_withPollCnt (a : After) (v : BitVec 8) (s : State) :
    afterRelease a { s with pollCnt := v } = { afterRelease a s with pollCnt := v } := by
  cases a with
  | done c => exact afterSpan_withPollCnt c v s
  | raise f => exact raiseFail_withPollCnt f v s

/-- The places where the countdown is sampled: the token wait (43 R173), the busy-wait (43 R181), and after a release byte, where the
loop tests of Initialize stand (42 R146, R149, R150). -/
def samplesCnt (q : Pos) : Prop := q = .tokenWait ∨ q = .busyWait ∨ ∃ a, q = .release a

theorem idleExchanged_withPollCnt {s t : State} (hq : samplesCnt s.pos) {b : Byte} (v : BitVec 8)
    (ht : idleExchanged b s = .next t) : idleExchanged b { s with pollCnt := v } = .next { t with pollCnt := v } := by
  rcases hq with hp | hp | ⟨a, hp⟩
  · cases (idleExchanged_tokenWait hp).symm.trans ht
    exact (idleExchanged_tokenWait (by exact hp)).trans (congrArg _ (tokenByte_withPollCnt b v s))
  · cases (idleExchanged_busyWait hp).symm.trans ht
    exact (idleExchanged_busyWait (by exact hp)).trans (congrArg _ (busyByte_withPollCnt b v s))
  · cases (idleExchanged_release hp).symm.trans ht
    exact (idleExchanged_release (by exact hp)).trans (congrArg _ (afterRelease_withPollCnt a v s))

theorem sendsIdle_of_samplesCnt {q : Pos} (hq : samplesCnt q) : sendsIdle q = true := by
  rcases hq with rfl | rfl | ⟨a, rfl⟩ <;> rfl

theorem blockStep_withPollCnt {s t : State} (hq : samplesCnt s.pos) (v : BitVec 8) (ht : blockStep s = .next t) :
    blockStep { s with pollCnt := v } = .next { t with pollCnt := v } := by
  obtain ⟨_, ht', rfl⟩ := blockStep_related (R := fun t t' => t' = { t with pollCnt := v }) (s := s)
    (u := { s with pollCnt := v }) (sendsIdle_of_samplesCnt hq) rfl rfl rfl
    (fun hi => ⟨_, idleExchanged_withPollCnt (s := exchanged _ _ s) hq v hi, rfl⟩) (timedOut_withPollCnt _ v s) ht
  exact ht'

/-- Settles O49: the poll keeps the countdown or loads it, and the places that sample the countdown keep the budget. -/
theorem timeoutMechanismsAreSeparate : Obligations.TimeoutMechanismsAreSeparate := by
  refine ⟨fun s t v c hp hn ht => ?poll, fun s t v q hp hq ht => ?countdown⟩
  case poll =>
    obtain ⟨hc, -⟩ := step_cases ht
    rw [step_turned hn hc] at ht
    rw [step_turned (s := { s with cnt := v }) hn hc]
    exact blockStep_poll_withCnt (s := turned s) hp v ht
  case countdown =>
    subst hp
    obtain ⟨hc, ⟨hm, rfl⟩ | ⟨hm, hb⟩⟩ := step_cases ht
    · exact step_tick (s := { s with pollCnt := v }) hc hm
    · exact (step_block (s := { s with pollCnt := v }) hc hm).trans (blockStep_withPollCnt (s := scheduled s) hq v hb)

end Sys2Proof.Machine
end

section
/-! PROOFS. The register values after hardware reset (O52). -/

namespace Sys2Proof.Machine

theorem step_hardwareReset {s : State} {hs : List HostMove} (hc : s.cfg.ok = true) (hn : noTick 1 s) (hp : s.pos = .idle)
    (hh : s.host = .reset :: hs) : step s = .next (hardwareReset { turned s with host := hs }) := by
  rw [step_turned hn hc, blockStep_hardwareReset (s := turned s) hp hh]

/-- Settles O52: a hardware reset of the idle block leaves the registers of `State.reset`, and the rest as it was. -/
theorem resetValues : Obligations.ResetValues := by
  refine ⟨rfl, rfl, rfl, rfl, rfl, rfl, rfl, rfl, rfl, rfl, rfl, fun s hc hn hp hs hh => ?_⟩
  exact ⟨_, step_hardwareReset hc hn hp hh, rfl, rfl, rfl, rfl, rfl, rfl, rfl, rfl, rfl, rfl, rfl, fun _ => rfl, rfl, rfl⟩

end Sys2Proof.Machine
end
